-- ==== Sys2Proof/Word.lean ====
section
/-! DEFINITION. The words the Nemsar 4208 carries (12, 1.1, 3.3, 5.1) and the numbers of its tables.
A field that is sent, received, wrapped or saturated is a bit vector of the manual's width; a place in a
fixed table is a `Fin` of the table's size. -/

namespace Sys2Proof

/-- One octet of a frame, a lane character's data bits, or an octet of a record image. -/
abbrev Octet := BitVec 8

/-- A patron, title or item number (00, Keys): 32 bits, 0 is no valid key. -/
abbrev Key := BitVec 32

/-- The server's revision number of a record (R195: 4 octets). -/
abbrev Version := BitVec 32

/-- A county day number (00, Day numbers): 16 bits, 0 is unknown. -/
abbrev Day := BitVec 16

/-- One counter (00, Counters): 16 bits, saturating. -/
abbrev Counter := BitVec 16

/-- The generation of a reused slot (00, Tags and generations): 0 to 4,095, wrapping. -/
abbrev Gen := BitVec 12

/-- A 16-bit envelope tag of a link frame (R195). -/
abbrev Tag := BitVec 16

/-- A whole record image, octet 0 first (R198). -/
abbrev Image := List Octet

/-- Lanes 0 to 3. -/
abbrev LaneId := Fin 4

/-- Drop addresses 1 to 8: drop `d` of the manual is the `DropId` with value `d - 1`. -/
abbrev DropId := Fin 8

/-- Contexts 0 to 15 (R46). -/
abbrev CtxId := Fin 16

/-- Fill slots 0 to 3 (R83). -/
abbrev SlotId := Fin 4

/-- Rule store blocks 0 to 12 (R169): LR0-LR3, CAL0-CAL7, PC. -/
abbrev BlockId := Fin 13

end Sys2Proof
end

