-- ==== Sys2Proof/Config.lean ====
section
/-! DEFINITION. What one manufactured part fixes and the manual leaves open. -/

namespace Sys2Proof.Config

/-- The revision octet of UNIT_STARTED (R38, R195): "a constant of each manufactured part whose value no
behaviour in this manual depends on". It has no body, so no proof can know it (UNVERIFIED, log entry 2). -/
opaque revision : Octet

end Sys2Proof.Config
end

