-- ==== Sys2Proof/Syntax.lean ====
section
/-! DEFINITION. The commands of the Nemsar 4208: one constructor for each row of spec/opcode_table.json.
A command that is an arriving link frame carries that frame's payload fields as sent (R195, R201), and a
command that is an event on a lane, a slot or a context names that lane, slot or context. -/

namespace Sys2Proof

/-- The three samples of each of the 12 bits of a lane character (R8). Bit `i` of each word is one sample of
the character's `i`-th bit on the line: bit 0 the start bit, bits 1-8 the data bits (least significant
first), bit 9 the mark bit, bit 10 the parity bit, bit 11 the stop bit (R7). -/
structure Samples where
  first : BitVec 12
  second : BitVec 12
  third : BitVec 12
deriving DecidableEq, Repr

/-- The commands, operations and events that change the part's state. -/
inductive Instr where
  /-- RESET_LINE (R24): RSTN asserted, or power returns; `straps` is the level of UA5-UA0 at its end (R30). -/
  | resetLine (straps : BitVec 6)
  /-- POWER_LOSS (R182). -/
  | powerLoss
  /-- SET_LANE (R4, R186), a MGMT frame: sequence, lane, mode and rate octets (R201). -/
  | setLane (seq lane mode rate : Octet)
  /-- SET_DROP (R10, R186), a MGMT frame: sequence, lane, drop and enrolment octets (R201). -/
  | setDrop (seq lane drop enrolment : Octet)
  /-- BREAK_END (R3): the 4 character times of break have passed. -/
  | breakEnd (lane : LaneId)
  /-- GAP_END (R3): the 4 character times of gap have passed. -/
  | gapEnd (lane : LaneId)
  /-- TURN_START (R12): the turnaround has run out. -/
  | turnStart (lane : LaneId)
  /-- LANE_TRANSMIT_END (R13): the last stop bit of the part's transmission has been sent. -/
  | laneTransmitEnd (lane : LaneId)
  /-- LANE_CHARACTER (R8, R13-R15): the samples of one received character. -/
  | laneCharacter (lane : LaneId) (samples : Samples)
  /-- FRAME_GAP_TIMEOUT (R16). -/
  | frameGapTimeout (lane : LaneId)
  /-- QUIET_WAIT_END (R15). -/
  | quietWaitEnd (lane : LaneId)
  /-- ANSWER_WINDOW_TIMEOUT (R13). -/
  | answerWindowTimeout (lane : LaneId)
  /-- HELD_CHARACTER_STANDS (R18). -/
  | heldCharacterStands (lane : LaneId)
  /-- BREAK_RECEIVED (R18, R19). -/
  | breakReceived (lane : LaneId)
  /-- LINK_FRAME_ERROR (R28, R29): the octets of the frame as they arrive on the line after its opening delimiter,
  up to the octet at which it is discarded. -/
  | linkFrameError (octets : List Octet)
  /-- RELAY_DOWN (R37): lane, drop and reply body. -/
  | relayDown (lane drop : Octet) (body : List Octet)
  /-- SEGMENT (R88): envelope tag, record kind, key, version, index, flags and 32 data octets. -/
  | segment (tag : Tag) (kind : Octet) (key : Key) (version : Version) (index flags : Octet)
      (data : List Octet)
  /-- ABSENT (R102): envelope tag. -/
  | absent (tag : Tag)
  /-- DEFER (R99): envelope tag and delay code. -/
  | defer (tag : Tag) (code : Octet)
  /-- DEFER_DELAY_END (R100): a slot's delay runs out. -/
  | deferDelayEnd (slot : SlotId)
  /-- FETCH_TIMEOUT (R87): a slot's fetch timer runs out. -/
  | fetchTimeout (slot : SlotId)
  /-- INVALIDATE (R77, R97): record kind, key and version. -/
  | invalidate (kind : Octet) (key : Key) (version : Version)
  /-- RESULT (R111): envelope tag, attempt, outcome and versions. -/
  | result (tag : Tag) (attempt outcome : Octet) (versions : List Version)
  /-- COMMIT_TIMEOUT (R115): a context's commit timer runs out. -/
  | commitTimeout (ctx : CtxId)
  /-- TRANSACTION_DEADLINE (R55): 8,000 ms after a context's acceptance. -/
  | transactionDeadline (ctx : CtxId)
  /-- TRANSMIT_FRAME_END (R33): the closing delimiter of the frame in transmission has been sent. -/
  | transmitFrameEnd
  /-- RENEW (R141): AU takes a RENEW context from the head of its decision list (R136). -/
  | renew
  /-- PAY (R148). -/
  | pay
  /-- ACCOUNT (R150). -/
  | account
  /-- HOLD (R159). -/
  | hold
  /-- CANCEL (R162). -/
  | cancel
  /-- SUSPEND (R163). -/
  | suspend
  /-- RESUME (R165). -/
  | resume
  /-- SET_DAY (R187), a MGMT frame: sequence octet and day. -/
  | setDay (seq : Octet) (day : Day)
  /-- SET_OVERRIDE (R188), a MGMT frame: sequence and override octets. -/
  | setOverride (seq value : Octet)
  /-- QUIESCE (R189). -/
  | quiesce (seq : Octet)
  /-- RESUME_SERVICE (R189). -/
  | resumeService (seq : Octet)
  /-- FLUSH_CACHE (R190). -/
  | flushCache (seq : Octet)
  /-- READ_STATUS (R191). -/
  | readStatus (seq : Octet)
  /-- READ_COUNTERS (R192): sequence octet and clear-after flag octet. -/
  | readCounters (seq clearAfter : Octet)
  /-- RESET_UNIT (R193): sequence octet; `straps` is the level of UA5-UA0 at the end of the reset (R30). -/
  | resetUnit (seq : Octet) (straps : BitVec 6)
  /-- UNKNOWN_COMMAND (R202): a MGMT frame's sequence octet, command code and arguments. -/
  | unknownCommand (seq code : Octet) (args : List Octet)
  /-- TABLE_CLEAR (R173): sequence and block octets. -/
  | tableClear (seq block : Octet)
  /-- TABLE_WRITE (R174): sequence, block and entry octets, and the values (R200). -/
  | tableWrite (seq block entry : Octet) (values : List Octet)
  /-- TABLE_CLOSE (R176). -/
  | tableClose (seq block : Octet)
  /-- TABLE_ABORT (R177). -/
  | tableAbort (seq : Octet)
  /-- TABLE_READ (R179): sequence, block and entry octets. -/
  | tableRead (seq block entry : Octet)
  /-- TABLE_STATUS_CLEAR (R180). -/
  | tableStatusClear (seq : Octet)
  /-- CLEAR_COMPLETE (R173): the running CLEAR operation completes. -/
  | clearComplete
  /-- WRITE_COMPLETE (R174): the running WRITE operation completes. -/
  | writeComplete
  /-- CLOSE_COMPLETE (R176): the running CLOSE operation completes. -/
  | closeComplete
  /-- OCTET_BOUNDARY_FOUND (R26): in HUNT the last eight bits form 0xA5. -/
  | octetBoundaryFound
deriving DecidableEq, Repr

end Sys2Proof
end

