-- ==== Sys2Proof/Machine/State.lean ====
section
/-! DEFINITION. The state of the Nemsar 4208 as plain data, block by block (KLC, BLI, DCT, RC, FU, CU, AU, RS,
UM), and its value after reset. INVENTORY.md lists every field with the rule that names it. -/

namespace Sys2Proof.Machine

/-! ## Kiosk lanes (chapter 1) -/

/-- What a lane in STARTING is doing (R3). -/
inductive StartPhase where
  /-- LTX held low, LDE asserted, for 4 character times. -/
  | breaking
  /-- LTX high, LDE deasserted, for 4 character times. -/
  | gap
deriving DecidableEq, Repr

/-- Lane mode (R1). -/
inductive LaneMode where
  | isolated
  | starting (phase : StartPhase)
  | serve
deriving DecidableEq, Repr

/-- Enrolment of a drop (R10). -/
inductive Enrolment where
  | off
  | served
  | relayed
deriving DecidableEq, Repr

/-- Presence of a drop (R10). -/
inductive Presence where
  | present
  | absent
deriving DecidableEq, Repr

/-- A drop record (R10); the miss count is 0 to 3. -/
structure DropRecord where
  enrolment : Enrolment
  presence : Presence
  misses : Fin 4
deriving DecidableEq, Repr

/-- A lane character as the part uses it (R7, R8): an address character has its mark bit set. -/
structure LaneChar where
  mark : Bool
  data : Octet
deriving DecidableEq, Repr

/-- The phase of the turn that is running (R12-R15). -/
inductive TurnPhase where
  /-- The part sends these characters: POLL, or DELIVER, the length character and the reply body (R12). -/
  | transmitting (chars : List LaneChar)
  /-- The answer window is open (R13). -/
  | window
  /-- A kiosk frame is being assembled (R14). -/
  | assembly
  /-- The quiet wait after a discard (R15). -/
  | quietWait
deriving DecidableEq, Repr

/-- The running turn: the drop visited and the phase (R1). -/
structure Turn where
  drop : DropId
  phase : TurnPhase
deriving DecidableEq, Repr

/-- A reply in a lane's reply queue (R20). -/
structure Reply where
  drop : DropId
  body : List Octet
deriving DecidableEq, Repr

/-- The eight counters of a lane, in the order of R22. -/
structure LaneCounters where
  framesTaken : Counter
  nils : Counter
  misses : Counter
  badCharacters : Counter
  truncated : Counter
  addressErrors : Counter
  breaks : Counter
  repliesLost : Counter
deriving DecidableEq, Repr

/-- A received character with stop bit 0 whose verdict is held (R18). -/
inductive HeldChar where
  | none
  /-- It arrived in the answer window or in frame assembly, and counts there if it stands. -/
  | counted
  /-- It arrived in a phase in which received characters are ignored (R9, R15). -/
  | ignored
deriving DecidableEq, Repr

/-- One Kiosk Lane Controller (R1). `lastVisited` is the number of the drop last visited in this round, 0 at its
start (R11); `idle` is the lane in SERVE with no round begun (R11). -/
structure Lane where
  mode : LaneMode
  rate : Fin 5
  round : Fin 8
  drops : Vector DropRecord 8
  turn : Option Turn
  lastVisited : Nat
  idle : Bool
  held : HeldChar
  assembly : List LaneChar
  replies : List Reply
  counters : LaneCounters
deriving DecidableEq, Repr

/-! ## Record kinds, kiosk requests, result codes -/

/-- A record kind and its pool (R62). -/
inductive RecordKind where
  | patron
  | title
  | item
deriving DecidableEq, Repr

/-- A local request: its kind and the payload fields of R44. -/
inductive Request where
  | renew (patron item : Key)
  | hold (patron title : Key) (pickup : Octet)
  | cancel (patron title : Key)
  | suspend (patron title : Key) (untilDay : Day)
  | resume (patron title : Key)
  | pay (patron : Key) (amount : BitVec 32) (reference : BitVec 64)
  | account (patron : Key)
deriving DecidableEq, Repr

/-- The result codes of R203. -/
inductive ResultCode where
  | renewed | holdPlaced | holdCancelled | holdSuspended | holdResumed | paid | accountInfo
  | noDate | busy | badRequest | offline | timeout | retryLater | uplinkBusy | uplinkTimeout
  | unknownPatron | unknownTitle | unknownItem | commitRefused
  | notOnLoan | notYours | cardExpired | blocked | noRule | notRenewable | limitReached
  | heldForOther | finesFull | noExtension | nothingOwed | duplicate | queueFull | noSuchHold
  | notSuspendable
  | done | clamped | badValue | dayBackward | notQuiesced | cancelled | errorPending
  | sequenceError | writeError | aborted | nothingToAbort
deriving DecidableEq, Repr

/-! ## The branch link (chapter 2) -/

/-- Receiver phase (R24). -/
inductive RxPhase where
  | hunt
  | frame
deriving DecidableEq, Repr

/-- Reset cause (R184). -/
inductive ResetCause where
  | line
  | command
deriving DecidableEq, Repr

/-- One entry of an UPDATE (R106, R108): the cache entry the decision read, its key and base version, and the new
image of a CHANGED entry (`none` is CHECKED). -/
structure UpdateEntry where
  kind : RecordKind
  entry : Nat
  key : Key
  version : Version
  image : Option Image
deriving DecidableEq, Repr

/-- A frame the part sends (R195), with what its tag and payload are made of. -/
inductive Frame where
  /-- RELAY_UP (R36). -/
  | relayUp (lane : LaneId) (drop : DropId) (body : List Octet)
  /-- FETCH of a slot at a generation (R84, R86). -/
  | fetch (slot : SlotId) (gen : Gen) (kind : RecordKind) (key : Key) (first count : Nat)
  /-- UPDATE of a context at a generation (R108, R109). -/
  | update (ctx : CtxId) (gen : Gen) (attempt : Nat) (entries : List UpdateEntry)
      (reference : Option (BitVec 64))
  /-- MGMT_REPLY (R185): sequence octet, command code, result code, fields. -/
  | mgmtReply (seq command : Octet) (result : ResultCode) (fields : List Octet)
  /-- UNIT_STARTED (R38). -/
  | unitStarted (cause : ResetCause)
deriving DecidableEq, Repr

/-- The six link counters, in the order of R39. -/
structure LinkCounters where
  framesTaken : Counter
  crcLength : Counter
  wrongUnit : Counter
  unknownKind : Counter
  relaysDropped : Counter
  lateTags : Counter
deriving DecidableEq, Repr

/-- The Branch Link Interface (R24). `bits` holds, oldest first, the bits of the octet under way in FRAME, and in HUNT
the last seven bits received (R26); `sent` is the position of the frame in transmission, the octets of it that have
gone out (R24, R25). -/
structure Bli where
  phase : RxPhase
  bits : List Bool
  assembly : List Octet
  escape : Bool
  txQueue : List Frame
  transmitting : Option Frame
  sent : Nat
  unitNumber : BitVec 6
  counters : LinkCounters
deriving DecidableEq, Repr

/-! ## Contexts (chapter 3) and commits (chapter 6) -/

/-- A record need (R46): the key, the entry found for it, and whether its lock is held (or the entry is owned as
TRANSIENT, R49). -/
structure Need where
  key : Key
  ref : Option Nat
  held : Bool
deriving DecidableEq, Repr

/-- The state of a busy context (R46); FREE is the absence of a transaction. -/
inductive TxnState where
  | gather
  | decide
  | commit
deriving DecidableEq, Repr

/-- The transaction deadline (R55): it is running from acceptance, or it has fallen while the context was in
COMMIT. It stands for the acceptance time of R46 (DESIGN CHOICE, log entry 1). -/
inductive Deadline where
  | running
  | passed
deriving DecidableEq, Repr

/-- The outstanding UPDATE of a context (R106), with the success reply AU built for the decision (R137). -/
structure Outstanding where
  attempt : Nat
  entries : List UpdateEntry
  reference : Option (BitVec 64)
  success : ResultCode
  fields : List Octet
deriving DecidableEq, Repr

/-- What a busy context holds (R46). `titleSettled` says that a RENEW's title need has been settled (R48). -/
structure Txn where
  state : TxnState
  lane : LaneId
  drop : DropId
  kioskTag : Octet
  request : Request
  deadline : Deadline
  patron : Option Need
  title : Option Need
  item : Option Need
  titleSettled : Bool
  regathers : Nat
  day : Option Day
  abandoned : Bool
  patronCopy : Option Image
  ruleWait : Option BlockId
  outstanding : Option Outstanding
deriving DecidableEq, Repr

/-- A context (R46): its generation, and its transaction unless it is FREE. -/
structure Context where
  gen : Gen
  txn : Option Txn
deriving DecidableEq, Repr

/-- The six transaction counters, in the order of R192. -/
structure TxnCounters where
  accepted : Counter
  committed : Counter
  refused : Counter
  failed : Counter
  regathers : Counter
  ruleWaits : Counter
deriving DecidableEq, Repr

/-- The Dispatch and Context Table (R46, R192). -/
structure Dct where
  contexts : Vector Context 16
  counters : TxnCounters
deriving DecidableEq, Repr

/-- CU's part of a commit record (R106): the commit timer, the UPDATE on the line mark and the owed UPDATE frame. -/
structure CommitRecord where
  timerRunning : Bool
  onLine : Bool
  owed : Option Frame
deriving DecidableEq, Repr

/-! ## The record cache (chapter 4) -/

/-- The record held by a VALID or TRANSIENT entry (R63); `stale` is the noted version when the flag is set. -/
structure Copy where
  key : Key
  version : Version
  image : Image
  stale : Option Version
deriving DecidableEq, Repr

/-- A cache entry (R63), each state with the fields it has: waiters are oldest first. -/
inductive Entry where
  | empty
  | filling (key : Key) (waiters : List CtxId)
  | valid (copy : Copy) (owner : Option CtxId) (waiters : List CtxId)
  | transient (copy : Copy) (tainted : Bool) (owner : CtxId)
deriving DecidableEq, Repr

/-- A pool (R62, R63): its entries, its order of use from least to most recent (R69), and its allocation
queue, oldest first (R67). -/
structure Pool where
  entries : List Entry
  lru : List Nat
  queue : List CtxId
deriving DecidableEq, Repr

/-- The Record Cache (R62). -/
structure Cache where
  patron : Pool
  title : Pool
  item : Pool
deriving DecidableEq, Repr

/-! ## Fills (chapter 5) -/

/-- The state of a slot in use, with its timer (R83, R87, R99): the fetch timer runs in REQUESTED, a delay of
10 to 150 ms runs in DEFERRED. -/
inductive FillPhase where
  | requested
  | deferred (delayMs : Nat)
deriving DecidableEq, Repr

/-- The fill a slot holds (R83): `received` has one place for each segment of the kind. -/
structure Fill where
  phase : FillPhase
  kind : RecordKind
  entry : Nat
  key : Key
  received : List (Option (List Octet))
  version : Option Version
  highest : Version
  defers : Nat
  owed : Option (Nat × Nat)
deriving DecidableEq, Repr

/-- A fill slot (R83); it is IDLE when it holds no fill. -/
structure FillSlot where
  gen : Gen
  fill : Option Fill
  onLine : Bool
deriving DecidableEq, Repr

/-- A place on the fill waiting list (R83). -/
structure WaitingFill where
  kind : RecordKind
  entry : Nat
  key : Key
  highest : Version
deriving DecidableEq, Repr

/-- The Fill Unit (R83). -/
structure FillUnit where
  slots : Vector FillSlot 4
  waiting : List WaitingFill
deriving DecidableEq, Repr

/-! ## AU (chapter 8) -/

/-- The Adjudication Unit: its decision list (R136) and the contexts in a rule wait in the order in which they
began to wait (R140). -/
structure Adjudicator where
  list : List CtxId
  waits : List CtxId
deriving DecidableEq, Repr

/-! ## The rule store (chapter 10) -/

/-- Content state of a block (R171). -/
inductive Content where
  | blank
  | partly
  | valid
  | incomplete
deriving DecidableEq, Repr

/-- A loan rule entry (R170). -/
structure LoanRule where
  renewable : Nat
  loanDays : Nat
  maxRenewals : Nat
  rate : Nat
  cap : Nat
  grace : Nat
deriving DecidableEq, Repr

/-- A patron class entry (R170). -/
structure PatronClass where
  threshold : Nat
  discount : Nat
  maxHolds : Nat
deriving DecidableEq, Repr

/-- The fields of a written entry (R170); bit `j` of the day marks is set when day position `j` is closed. -/
inductive RuleEntry where
  | loanRule (r : LoanRule)
  | patronClass (p : PatronClass)
  | windowBase (w : Nat)
  | calendar (marks : BitVec 64)
deriving DecidableEq, Repr

/-- A block (R169, R171); a blank entry is `none`. -/
structure Block where
  content : Content
  entries : List (Option RuleEntry)
deriving DecidableEq, Repr

/-- What a running operation does (R172); a WRITE has its entry and the values given (R174). -/
inductive OpKind where
  | clear
  | write (entry : Nat) (values : List Octet)
  | close
deriving DecidableEq, Repr

/-- The current store operation (R172) with the management command that started it. -/
structure Operation where
  kind : OpKind
  block : BlockId
  seq : Octet
  command : Octet
deriving DecidableEq, Repr

/-- The Rule Store (R171, R172): the store is BUSY while an operation is present. -/
structure RuleStore where
  blocks : Vector Block 13
  operation : Option Operation
  writeError : Bool
  sequenceError : Bool
deriving DecidableEq, Repr

/-! ## Unit management (chapter 11) -/

/-- Service state (R184). -/
inductive Service where
  | normal
  | quiescing
  | quiesced
deriving DecidableEq, Repr

/-- Override (R184). -/
inductive Override where
  | localKinds
  | relayAll
  | refuseAll
deriving DecidableEq, Repr

/-- A MGMT_REPLY body in the reply list (R185). -/
structure MgmtReply where
  seq : Octet
  command : Octet
  result : ResultCode
  fields : List Octet
deriving DecidableEq, Repr

/-- Unit Management (R184). -/
structure Um where
  day : Day
  service : Service
  override : Override
  pendingQuiesce : Option Octet
  cause : ResetCause
  replies : List MgmtReply
  replyOnLine : Bool
deriving DecidableEq, Repr

/-! ## The whole part -/

/-- The part's state. `powered` is clear from a loss of power to its return (R182); `pending` is the queue of
commands waiting, first in, first out, which no command's meaning reads or writes. -/
structure State where
  powered : Bool
  lanes : Vector Lane 4
  bli : Bli
  dct : Dct
  rc : Cache
  fu : FillUnit
  cu : Vector CommitRecord 16
  au : Adjudicator
  rs : RuleStore
  um : Um
  pending : List Instr
deriving DecidableEq, Repr

/-- The reasons the machine stops with a fault. The manual gives every command an effect in every state, so there
is none: no command raises a fault. -/
inductive Fault where
deriving DecidableEq, Repr

/-- The reasons a command is refused. -/
inductive Refusal where
  /-- Raised by `exec` for a command whose meaning is not written yet; safe: nothing can be proved of its effect.
  Every command has its meaning, so no arm raises it. -/
  | notModelled (mnemonic : String)
deriving DecidableEq, Repr

/-! ## Reset -/

/-- A drop record after reset (R1). -/
def DropRecord.reset : DropRecord := ⟨.off, .present, 0⟩

/-- Lane counters after reset (R22). -/
def LaneCounters.zero : LaneCounters := ⟨0, 0, 0, 0, 0, 0, 0, 0⟩

/-- A lane after reset (R1). -/
def Lane.reset : Lane where
  mode := .isolated
  rate := 2
  round := 0
  drops := Vector.replicate 8 DropRecord.reset
  turn := none
  lastVisited := 0
  idle := false
  held := .none
  assembly := []
  replies := []
  counters := LaneCounters.zero

/-- Link counters after reset (R39). -/
def LinkCounters.zero : LinkCounters := ⟨0, 0, 0, 0, 0, 0⟩

/-- The unit number of a strap setting (R30): 0 gives 63. -/
def unitOfStraps (straps : BitVec 6) : BitVec 6 := if straps = 0 then 63 else straps

/-- BLI after reset (R24): one UNIT_STARTED in the transmit queue (R38), and no bits received (DESIGN CHOICE, log entry
39). -/
def Bli.reset (phase : RxPhase) (straps : BitVec 6) (cause : ResetCause) : Bli where
  phase := phase
  bits := []
  assembly := []
  escape := false
  txQueue := [.unitStarted cause]
  transmitting := none
  sent := 0
  unitNumber := unitOfStraps straps
  counters := LinkCounters.zero

/-- Transaction counters after reset (R192). -/
def TxnCounters.zero : TxnCounters := ⟨0, 0, 0, 0, 0, 0⟩

/-- DCT after reset (R46). -/
def Dct.reset : Dct := ⟨Vector.replicate 16 ⟨0, none⟩, TxnCounters.zero⟩

/-- The number of entries of a pool (R62). -/
def RecordKind.poolSize : RecordKind → Nat
  | .patron => 128
  | .title => 64
  | .item => 256

/-- A pool after reset (R63): every entry EMPTY, in entry number order. -/
def Pool.reset (k : RecordKind) : Pool :=
  ⟨List.replicate k.poolSize .empty, List.range k.poolSize, []⟩

/-- RC after reset (R63). -/
def Cache.reset : Cache := ⟨Pool.reset .patron, Pool.reset .title, Pool.reset .item⟩

/-- FU after reset (R83). -/
def FillUnit.reset : FillUnit := ⟨Vector.replicate 4 ⟨0, none, false⟩, []⟩

/-- CU after reset (R106). -/
def CommitRecord.reset : CommitRecord := ⟨false, false, none⟩

/-- UM after reset (R184). -/
def Um.reset (cause : ResetCause) : Um where
  day := 0
  service := .normal
  override := .localKinds
  pendingQuiesce := none
  cause := cause
  replies := []
  replyOnLine := false

/-- Every field a reset sets, with the rule store's blocks carried across it (R24, R182, R193). -/
def State.afterReset (phase : RxPhase) (straps : BitVec 6) (cause : ResetCause) (blocks : Vector Block 13)
    (pending : List Instr) : State where
  powered := true
  lanes := Vector.replicate 4 Lane.reset
  bli := Bli.reset phase straps cause
  dct := Dct.reset
  rc := Cache.reset
  fu := FillUnit.reset
  cu := Vector.replicate 16 CommitRecord.reset
  au := ⟨[], []⟩
  rs := ⟨blocks, none, false, false⟩
  um := Um.reset cause
  pending := pending

/-- The rule store blocks of a new part: all thirteen BLANK (R169, R171). -/
def newBlocks : Vector Block 13 :=
  (Vector.replicate 13 ⟨.blank, List.replicate 64 none⟩).set 12 ⟨.blank, List.replicate 17 none⟩

/-- A new part right after the reset by RSTN, its straps all at 0 (DESIGN CHOICE, log entry 3). -/
def State.reset : State := State.afterReset .hunt 0 .line newBlocks []

end Sys2Proof.Machine
end

