-- ==== Sys2Proof/Machine/Operands.lean ====
section
/-! DEFINITION. How operands are read and results are written: octet order, lane characters and their samples
(R7, R8), record images (R198), kiosk requests (R194), result codes (R203), frames (R195, R197) and the check
sequence (R29). -/

namespace Sys2Proof.Machine

/-! ## Octet order: high octet first (12) -/

/-- The octet of a number below 256. -/
def octet (n : Nat) : Octet := BitVec.ofNat 8 n

/-- The number a run of octets spells, high octet first. -/
def beNat : List Octet → Nat
  | [] => 0
  | o :: os => o.toNat * 256 ^ os.length + beNat os

/-- `n` in `width` octets, high octet first. -/
def beOctets : (width : Nat) → (n : Nat) → List Octet
  | 0, _ => []
  | w + 1, n => octet (n / 256 ^ w) :: beOctets w n

/-- `count` octets of an image from octet `start`; an octet beyond the image reads 0 (DESIGN CHOICE, log entry 31). -/
def octetsAt (image : List Octet) (start count : Nat) : List Octet :=
  (List.range count).map fun i => image.getD (start + i) 0

/-- The number in `count` octets of an image from octet `start`. -/
def natAt (image : List Octet) (start count : Nat) : Nat := beNat (octetsAt image start count)

/-- The image with the octets from `start` on replaced by `new`. -/
def putOctets (image : List Octet) (start : Nat) (new : List Octet) : List Octet :=
  image.take start ++ new ++ image.drop (start + new.length)

/-! ## Record kinds -/

/-- The record kind codes of R195. -/
def RecordKind.code : RecordKind → Octet
  | .patron => 1
  | .title => 2
  | .item => 3

/-- The record kind an octet names, if any (R195, R77). -/
def RecordKind.ofCode (o : Octet) : Option RecordKind :=
  if o = 1 then some .patron else if o = 2 then some .title else if o = 3 then some .item else none

/-- Segments per record (R62). -/
def RecordKind.segments : RecordKind → Nat
  | .patron => 4
  | .title => 8
  | .item => 1

/-- The order in which records are looked up and locked (R49, R50). -/
def RecordKind.order : List RecordKind := [.patron, .title, .item]

/-- The failure code of an ABSENT (R102). -/
def RecordKind.unknownCode : RecordKind → ResultCode
  | .patron => .unknownPatron
  | .title => .unknownTitle
  | .item => .unknownItem

/-! ## Lane characters (R7, R8, R194) -/

/-- Majority of the three samples of each bit (R8). -/
def majorityOf (x : Samples) : BitVec 12 :=
  (x.first &&& x.second) ||| (x.second &&& x.third) ||| (x.first &&& x.third)

/-- The noise indication: some bit had samples that disagreed (R8). -/
def noisy (x : Samples) : Bool := (x.first ^^^ x.second) ||| (x.second ^^^ x.third) != 0#12

/-- The parity of a list of bits: true when an odd number of them are set. -/
def oddOnes : List Bool → Bool
  | [] => false
  | b :: bs => b != oddOnes bs

/-- A parity error: data bits, mark bit and parity bit together hold an odd number of ones (R8). -/
def parityError (bits : BitVec 12) : Bool :=
  oddOnes ((List.range 10).map fun i => bits.getLsbD (i + 1))

/-- What a falling edge on LRX gives (R8). -/
inductive Reception where
  /-- The start bit's majority is 1: no character is received. -/
  | falseStart
  /-- The stop bit is 0: the verdict is held (R18). -/
  | held
  /-- A noise indication or a parity error. -/
  | bad
  /-- A good character. -/
  | good (c : LaneChar)
deriving DecidableEq, Repr

/-- The character that samples give (R8). -/
def receive (x : Samples) : Reception :=
  let bits := majorityOf x
  if bits.getLsbD 0 then .falseStart
  else if !bits.getLsbD 11 then .held
  else if noisy x || parityError bits then .bad
  else .good ⟨bits.getLsbD 9, bits.extractLsb' 1 8⟩

/-- The 12 bits the part sends for a character, bit `i` the `i`-th on the line (R7). -/
def LaneChar.bits (c : LaneChar) : BitVec 12 :=
  let parity := oddOnes (c.mark :: (List.range 8).map fun i => c.data.getLsbD i)
  (1#1 ++ BitVec.ofBool parity ++ BitVec.ofBool c.mark ++ c.data ++ 0#1 : BitVec 12)

/-- Samples of a character that arrives without noise. -/
def LaneChar.samples (c : LaneChar) : Samples := ⟨c.bits, c.bits, c.bits⟩

/-- The manual's number of a drop, 1 to 8. -/
def dropNumber (d : DropId) : Nat := d.val + 1

/-- POLL, DELIVER, the frame address and NIL of drop `d` (R194). -/
def pollChar (d : DropId) : LaneChar := ⟨true, octet (0x40 + dropNumber d)⟩
/-- DELIVER (R194). -/
def deliverChar (d : DropId) : LaneChar := ⟨true, octet (0x80 + dropNumber d)⟩
/-- The address a kiosk frame opens with (R194). -/
def addressChar (d : DropId) : LaneChar := ⟨true, octet (dropNumber d)⟩
/-- NIL (R194). -/
def nilChar (d : DropId) : LaneChar := ⟨true, octet (0xC0 + dropNumber d)⟩
/-- A length or body character (R194). -/
def dataChar (o : Octet) : LaneChar := ⟨false, o⟩

/-- The characters of a turn: POLL, or DELIVER with the length and body of a reply (R12). -/
def turnChars (d : DropId) : Option Reply → List LaneChar
  | none => [pollChar d]
  | some r => deliverChar d :: dataChar (octet r.body.length) :: r.body.map dataChar

/-- A frame or reply body is 2 to 62 characters long (R14, R20). -/
def bodyLengthOk (n : Nat) : Bool := decide (2 ≤ n ∧ n ≤ 62)

/-! ## Lane pins (R2, R3, R7) -/

/-- LDE is asserted while the lane sends a break or a transmission (R3, R7). -/
def Lane.lde (l : Lane) : Bool :=
  match l.mode with
  | .isolated => false
  | .starting p => decide (p = .breaking)
  | .serve =>
    match l.turn with
    | some ⟨_, .transmitting _⟩ => true
    | _ => false

/-- LTX is held low for the break of STARTING alone; between transmissions it is high (R2, R3, R7). -/
def Lane.ltxHeldLow (l : Lane) : Bool := decide (l.mode = .starting .breaking)

/-- A lane receives in SERVE whenever it is not transmitting (R9). -/
def Lane.receiving (l : Lane) : Bool := decide (l.mode = .serve) && !l.lde

/-! ## Result codes (R203) and reply bodies (R194) -/

/-- The value of a result code (R203). -/
def ResultCode.code : ResultCode → Octet
  | .renewed => 0x01 | .holdPlaced => 0x02 | .holdCancelled => 0x03 | .holdSuspended => 0x04
  | .holdResumed => 0x05 | .paid => 0x06 | .accountInfo => 0x07
  | .noDate => 0x10 | .busy => 0x11 | .badRequest => 0x12 | .offline => 0x13 | .timeout => 0x14
  | .retryLater => 0x15 | .uplinkBusy => 0x16 | .uplinkTimeout => 0x17 | .unknownPatron => 0x18
  | .unknownTitle => 0x19 | .unknownItem => 0x1A | .commitRefused => 0x1B
  | .notOnLoan => 0x20 | .notYours => 0x21 | .cardExpired => 0x22 | .blocked => 0x23 | .noRule => 0x24
  | .notRenewable => 0x25 | .limitReached => 0x26 | .heldForOther => 0x27 | .finesFull => 0x28
  | .noExtension => 0x29 | .nothingOwed => 0x2A | .duplicate => 0x2B | .queueFull => 0x2C
  | .noSuchHold => 0x2D | .notSuspendable => 0x2E
  | .done => 0x40 | .clamped => 0x41 | .badValue => 0x42 | .dayBackward => 0x43 | .notQuiesced => 0x44
  | .cancelled => 0x45 | .errorPending => 0x46 | .sequenceError => 0x47 | .writeError => 0x48
  | .aborted => 0x49 | .nothingToAbort => 0x4A

/-- The kind octet of a request (R40). -/
def Request.kindCode : Request → Octet
  | .renew .. => 0x01
  | .hold .. => 0x02
  | .cancel .. => 0x03
  | .suspend .. => 0x04
  | .resume .. => 0x05
  | .pay .. => 0x06
  | .account .. => 0x07

/-- The patron a request names (R44). -/
def Request.patronKey : Request → Key
  | .renew p _ | .hold p _ _ | .cancel p _ | .suspend p _ _ | .resume p _ | .pay p _ _ | .account p => p

/-- The title a request names (R44, R48). -/
def Request.titleKey : Request → Option Key
  | .hold _ t _ | .cancel _ t | .suspend _ t _ | .resume _ t => some t
  | .renew .. | .pay .. | .account _ => none

/-- The item a request names (R44). -/
def Request.itemKey : Request → Option Key
  | .renew _ i => some i
  | .hold .. | .cancel .. | .suspend .. | .resume .. | .pay .. | .account _ => none

/-- A local kind is 0x01 to 0x07 (R40). -/
def isLocalKind (o : Octet) : Bool := decide (1 ≤ o.toNat ∧ o.toNat ≤ 7)

/-- The 4 octets at `start` as a key. -/
def keyAt (payload : List Octet) (start : Nat) : Key := BitVec.ofNat 32 (natAt payload start 4)

/-- The request a payload spells for a local kind, `none` when its length or a zero key fails check 3 (R44, R194). -/
def Request.parse (kind : Octet) (payload : List Octet) : Option Request :=
  let a := keyAt payload 0
  let b := keyAt payload 4
  let two := decide (a ≠ 0 ∧ b ≠ 0)
  match kind.toNat with
  | 1 => if payload.length = 8 ∧ two then some (.renew a b) else none
  | 2 => if payload.length = 9 ∧ two then some (.hold a b (payload.getD 8 0)) else none
  | 3 => if payload.length = 8 ∧ two then some (.cancel a b) else none
  | 4 => if payload.length = 10 ∧ two then some (.suspend a b (BitVec.ofNat 16 (natAt payload 8 2))) else none
  | 5 => if payload.length = 8 ∧ two then some (.resume a b) else none
  | 6 => if payload.length = 16 ∧ a ≠ 0 then
      some (.pay a (BitVec.ofNat 32 (natAt payload 4 4)) (BitVec.ofNat 64 (natAt payload 8 8))) else none
  | 7 => if payload.length = 4 ∧ a ≠ 0 then some (.account a) else none
  | _ => none

/-- A reply body: kind, kiosk tag, result code, fields (R58, R194). -/
def replyBody (kind tag : Octet) (code : ResultCode) (fields : List Octet) : List Octet :=
  kind :: tag :: code.code :: fields

/-! ## Patron images (R198, R133, R134) -/

/-- One fine of a patron's fine list (R133). -/
structure Fine where
  item : Nat
  amount : Nat
  day : Nat
deriving DecidableEq, Repr

/-- Patron class, octet 4. -/
def patronClassOf (p : Image) : Nat := natAt p 4 1
/-- Card expiry day, octets 6-7. -/
def cardExpiry (p : Image) : Nat := natAt p 6 2
/-- Manual block, octet 8, set when nonzero. -/
def manualBlock (p : Image) : Bool := decide (natAt p 8 1 ≠ 0)
/-- Holds count, octet 9. -/
def holdsCount (p : Image) : Nat := natAt p 9 1

/-- Fine slot `k` (from 0) of a patron image. -/
def fineSlot (p : Image) (k : Nat) : Fine :=
  ⟨natAt p (32 + 8 * k) 4, natAt p (36 + 8 * k) 2, natAt p (38 + 8 * k) 2⟩

/-- The fine list: the non-empty slots in slot order (R133). -/
def fineList (p : Image) : List Fine :=
  ((List.range 12).map (fineSlot p)).filter fun f => decide (f.amount ≠ 0)

/-- The balance: the sum of the amounts (R133). -/
def balanceOf (fines : List Fine) : Nat := (fines.map Fine.amount).sum

/-- The octets of one fine slot. -/
def Fine.octets (f : Fine) : List Octet := beOctets 4 f.item ++ beOctets 2 f.amount ++ beOctets 2 f.day

/-- The image with the fine list packed into the first slots and the rest empty (R134). -/
def putFines (p : Image) (fines : List Fine) : Image :=
  putOctets p 32 (((fines.take 12).flatMap Fine.octets) ++ List.replicate (96 - 8 * (fines.take 12).length) 0)

/-- The image with a new holds count. -/
def putHoldsCount (p : Image) (n : Nat) : Image := putOctets p 9 [octet n]

/-! ## Item images (R198) -/

/-- Title number, octets 4-7. -/
def itemTitle (i : Image) : Key := keyAt i 4
/-- Item number, octets 0-3. -/
def itemNumber (i : Image) : Nat := natAt i 0 4
/-- Item class, octet 8. -/
def itemClass (i : Image) : Nat := natAt i 8 1
/-- Owning branch, octet 9. -/
def owningBranch (i : Image) : Nat := natAt i 9 1
/-- Loan present, octet 10, set when nonzero. -/
def loanPresent (i : Image) : Bool := decide (natAt i 10 1 ≠ 0)
/-- Borrower, octets 11-14. -/
def borrower (i : Image) : Key := keyAt i 11
/-- Due day, octets 15-16. -/
def dueDay (i : Image) : Nat := natAt i 15 2
/-- Renewals used, octet 17. -/
def renewalsUsed (i : Image) : Nat := natAt i 17 1

/-- The item image of a renewal: new due day, renewals used plus 1, the rest as read (R147). -/
def putRenewal (i : Image) (newDue : Nat) : Image :=
  putOctets i 15 (beOctets 2 newDue ++ [octet (renewalsUsed i + 1)])

/-- The title key a renewal needs (R48): that of an item which shows a loan to the patron, unless it is 0 (R142). -/
def titleNeedOf (i : Image) (patron : Key) : Option Key :=
  if loanPresent i && decide (borrower i = patron) && decide (itemTitle i ≠ 0) then some (itemTitle i) else none

/-! ## Title images and hold lists (R198, R199, R154-R157) -/

/-- One hold (R155); `suspend` is 0 when absent, `offset` the shelf offset octet. -/
structure Hold where
  patron : Nat
  branch : Nat
  ready : Bool
  placed : Nat
  suspend : Nat
  offset : Nat
deriving DecidableEq, Repr

/-- Free copies, octet 4. -/
def freeCopies (t : Image) : Nat := natAt t 4 1

/-- Hold slot `k` (from 0) of a title image. -/
def holdSlot (t : Image) (k : Nat) : Hold :=
  let base := 6 + 10 * k
  let flags := natAt t (base + 4) 1
  ⟨natAt t base 4, flags % 64, decide (flags / 64 % 2 = 1), natAt t (base + 5) 2, natAt t (base + 7) 2,
   natAt t (base + 9) 1⟩

/-- Keeps the first hold of each patron (R154). -/
def firstHolds : (seen : List Nat) → List Hold → List Hold
  | _, [] => []
  | seen, h :: hs => if h.patron ∈ seen then firstHolds seen hs else h :: firstHolds (h.patron :: seen) hs

/-- The hold list of a title image (R154). -/
def holdList (t : Image) : List Hold :=
  firstHolds [] (((List.range 24).map (holdSlot t)).filter fun h => decide (h.patron ≠ 0))

/-- A hold is active waiting on day `day` (R156). -/
def Hold.activeWaiting (h : Hold) (day : Nat) : Bool := !h.ready && decide (h.suspend = 0 ∨ h.suspend ≤ day)

/-- The shelf expiry day of a READY hold (R199). -/
def Hold.shelfExpiry (h : Hold) : Option Nat := if h.ready then some (h.placed + h.offset) else none

/-- The octets of one hold slot (R199). -/
def Hold.octets (h : Hold) : List Octet :=
  beOctets 4 h.patron ++ [octet (h.branch % 64 + if h.ready then 64 else 0)] ++ beOctets 2 h.placed ++
    beOctets 2 h.suspend ++ [octet (if h.ready then h.offset else 0)]

/-- The title image with the hold list packed and the hold count written (R157). -/
def putHolds (t : Image) (holds : List Hold) : Image :=
  putOctets t 5 (octet (holds.take 24).length :: ((holds.take 24).flatMap Hold.octets) ++
    List.replicate (240 - 10 * (holds.take 24).length) 0)

/-! ## Tags (00, Tags and generations) -/

/-- Slot number × 4,096 + generation. -/
def tagOf (slot : Nat) (gen : Gen) : Tag := BitVec.ofNat 16 (slot * 4096 + gen.toNat)

/-- The slot number and generation a tag names. -/
def tagSlot (t : Tag) : Nat := t.toNat / 4096
/-- The generation a tag names. -/
def tagGen (t : Tag) : Gen := BitVec.ofNat 12 (t.toNat % 4096)

/-! ## Frames the part sends (R27, R195, R197) -/

/-- The octets of one UPDATE entry (R197). -/
def UpdateEntry.octets (reference : Option (BitVec 64)) (e : UpdateEntry) : List Octet :=
  let head (treatment : Octet) := treatment :: e.kind.code :: beOctets 4 e.key.toNat ++ beOctets 4 e.version.toNat
  match e.image, reference with
  | none, _ => head 2
  | some image, none => head 1 ++ image
  | some image, some r => head 3 ++ image ++ beOctets 8 r.toNat

/-- The kind octet of a frame (R195). -/
def Frame.kindCode : Frame → Octet
  | .relayUp .. => 0x10
  | .fetch .. => 0x11
  | .update .. => 0x12
  | .mgmtReply .. => 0x13
  | .unitStarted _ => 0x14

/-- The envelope tag of a frame (R27). -/
def Frame.tag : Frame → Tag
  | .fetch slot gen .. => tagOf slot gen
  | .update ctx gen .. => tagOf ctx gen
  | .relayUp .. | .mgmtReply .. | .unitStarted _ => 0

/-- The octet of a reset cause (R195, R202). -/
def ResetCause.code : ResetCause → Octet
  | .line => 1
  | .command => 2

/-- The payload of a frame (R36, R195). -/
def Frame.payload : Frame → List Octet
  | .relayUp lane drop body => octet lane :: octet (dropNumber drop) :: body
  | .fetch _ _ kind key first count => kind.code :: beOctets 4 key.toNat ++ [octet first, octet count]
  | .update _ _ attempt entries reference =>
    octet attempt :: octet entries.length :: entries.flatMap (UpdateEntry.octets reference)
  | .mgmtReply seq command result fields => seq :: command :: result.code :: fields
  | .unitStarted cause => [cause.code, 0x42, 0x08, Config.revision]

/-- Is the frame a RELAY_UP (R34)? -/
def Frame.isRelayUp : Frame → Bool
  | .relayUp .. => true
  | _ => false

/-! ## The envelope: check sequence, escapes, delimiters (R27, R29) -/

/-- One bit of the check division, high bit first (R29). -/
def crcShift (r : BitVec 16) : BitVec 16 := if r.msb then (r <<< 1) ^^^ 0x1021 else r <<< 1

/-- The check register after one octet (R29). -/
def crcOctet (r : BitVec 16) (o : Octet) : BitVec 16 :=
  Nat.repeat crcShift 8 (r ^^^ (o.setWidth 16 <<< 8))

/-- The check sequence of some octets (R29). -/
def crc (os : List Octet) : BitVec 16 := os.foldl crcOctet 0xFFFF

/-- The content of a frame: kind, unit, tag, payload length, payload, check sequence (R195). -/
def contentOf (kind unit : Octet) (tag : Tag) (payload : List Octet) : List Octet :=
  let body := kind :: unit :: beOctets 2 tag.toNat ++ beOctets 2 payload.length ++ payload
  body ++ beOctets 2 (crc body).toNat

/-- The content as it stands on the line, escaped (R27). -/
def escaped : List Octet → List Octet
  | [] => []
  | o :: os =>
    if o = 0xA5 then 0xA6 :: 0xE5 :: escaped os
    else if o = 0xA6 then 0xA6 :: 0xE6 :: escaped os
    else o :: escaped os

/-- The octets of a frame on BTX: delimiter, escaped content, delimiter (R27). -/
def Frame.line (unit : BitVec 6) (f : Frame) : List Octet :=
  0xA5 :: escaped (contentOf f.kindCode (unit.setWidth 8) f.tag f.payload) ++ [0xA5]

/-! ## The bits of the line (R25, R26) -/

/-- The bits of an octet in the order of the line, most significant first (R25). -/
def octetBits (o : Octet) : List Bool := (List.range 8).map o.getMsbD

/-- The octet that eight bits of the line form, the first most significant (R25). -/
def octetOfBits (bits : List Bool) : Octet := octet (bits.foldl (fun n b => 2 * n + b.toNat) 0)

/-- The octets of the frame in transmission: those that have gone out before its position (R24). A reset cuts the frame
off behind them (R25). -/
def Bli.fragment (b : Bli) : List Octet :=
  match b.transmitting with
  | some f => (f.line b.unitNumber).take b.sent
  | none => []

/-- The octet of the present octet time on BTX: the one at the transmitter's position, or idle fill (R25). -/
def Bli.octetNow (b : Bli) : Octet :=
  match b.transmitting with
  | some f => (f.line b.unitNumber).getD b.sent 0xA5
  | none => 0xA5

/-- The level of BTX in the bit time `bit` of the present octet time, most significant bit first; held at 1 while RSTN
is asserted (R25). -/
def Bli.btx (b : Bli) (rstnAsserted : Bool) (bit : Fin 8) : Bool := rstnAsserted || b.octetNow.getMsbD bit

/-- The payload lengths accepted for an arriving kind, `none` when the part receives no such kind (R29, R196). -/
def payloadAccepted (kind : Octet) (n : Nat) : Option Bool :=
  match kind.toNat with
  | 0x20 => some (decide (2 ≤ n ∧ n ≤ 480))
  | 0x21 => some (decide (n = 43))
  | 0x22 => some (decide (n = 0))
  | 0x23 => some (decide (n = 1))
  | 0x24 => some (decide (n = 9))
  | 0x25 => some (decide (n = 2 ∨ n = 6 ∨ n = 10 ∨ n = 14))
  | 0x26 => some (decide (2 ≤ n ∧ n ≤ 480))
  | _ => none

end Sys2Proof.Machine
end

