-- ==== Sys2Proof/Decode.lean ====
section
/-! DEFINITION. From octets to commands. The opcode table gives no row any bits, so no word spells a command; a link
frame's kind, tag and payload do (R195, R201, R202), and the commands that arrive as frames are decoded from and
encoded to them here. -/

namespace Sys2Proof

open Sys2Proof.Machine (octetsAt natAt beOctets keyAt)

/-- The command a word spells by the bits of spec/opcode_table.json: no row of the table has any. -/
def decodeTableWord (_nbits _w : Nat) : Option Instr := none

/-- The version in 4 octets of a payload. -/
def versionAt (payload : List Octet) (start : Nat) : Version := BitVec.ofNat 32 (natAt payload start 4)

/-- The versions a RESULT carries, 4 octets each (R196). -/
def versionsFrom (payload : List Octet) : List Version :=
  (List.range (payload.length / 4)).map fun i => versionAt payload (4 * i)

/-- A MGMT frame's command (R201, R202): a code not in the table, or arguments of another length than the command's,
is UNKNOWN_COMMAND. `straps` is what a RESET_UNIT would read. -/
def decodeMgmt (straps : BitVec 6) (seq code : Octet) (args : List Octet) : Instr :=
  let unknown := Instr.unknownCommand seq code args
  if code = 0x01 then match args with | [a, b, c] => .setLane seq a b c | _ => unknown
  else if code = 0x02 then match args with | [a, b, c] => .setDrop seq a b c | _ => unknown
  else if code = 0x03 then match args with | [a, b] => .setDay seq (a ++ b) | _ => unknown
  else if code = 0x04 then match args with | [a] => .setOverride seq a | _ => unknown
  else if code = 0x05 then match args with | [] => .quiesce seq | _ => unknown
  else if code = 0x06 then match args with | [] => .resumeService seq | _ => unknown
  else if code = 0x07 then match args with | [] => .flushCache seq | _ => unknown
  else if code = 0x08 then match args with | [] => .readStatus seq | _ => unknown
  else if code = 0x09 then match args with | [a] => .readCounters seq a | _ => unknown
  else if code = 0x0A then match args with | [] => .resetUnit seq straps | _ => unknown
  else if code = 0x0B then match args with | [a] => .tableClear seq a | _ => unknown
  else if code = 0x0C then match args with | a :: b :: values => .tableWrite seq a b values | _ => unknown
  else if code = 0x0D then match args with | [a] => .tableClose seq a | _ => unknown
  else if code = 0x0E then match args with | [] => .tableAbort seq | _ => unknown
  else if code = 0x0F then match args with | [a, b] => .tableRead seq a b | _ => unknown
  else if code = 0x10 then match args with | [] => .tableStatusClear seq | _ => unknown
  else unknown

/-- The command a good frame of some kind, tag and payload is (R195, R196); `none` for a kind the part does not
receive or a payload length it does not accept. -/
def decodeFrame (straps : BitVec 6) (kind : Octet) (tag : Tag) (payload : List Octet) : Option Instr :=
  match kind.toNat, payload with
  | 0x20, lane :: drop :: body => some (.relayDown lane drop body)
  | 0x21, k :: rest =>
    if rest.length = 42 then
      some (.segment tag k (keyAt rest 0) (versionAt rest 4) (rest.getD 8 0) (rest.getD 9 0) (rest.drop 10))
    else none
  | 0x22, [] => some (.absent tag)
  | 0x23, [code] => some (.defer tag code)
  | 0x24, k :: rest => if rest.length = 8 then some (.invalidate k (keyAt rest 0) (versionAt rest 4)) else none
  | 0x25, attempt :: outcome :: rest =>
    if rest.length % 4 = 0 ∧ rest.length ≤ 12 then some (.result tag attempt outcome (versionsFrom rest)) else none
  | 0x26, seq :: code :: args => some (decodeMgmt straps seq code args)
  | _, _ => none

/-- A MGMT frame's payload for a command (R201). -/
def mgmtPayload (seq code : Octet) (args : List Octet) : Octet × Tag × List Octet := (0x26, 0, seq :: code :: args)

/-- The kind, tag and payload of the frame a command arrives as; `none` for a command that is no frame (R195, R201).
A tag the part does not use is 0 (R31). -/
def encodeFrame : Instr → Option (Octet × Tag × List Octet)
  | .relayDown lane drop body => some (0x20, 0, lane :: drop :: body)
  | .segment tag kind key version index flags data =>
    some (0x21, tag, kind :: beOctets 4 key.toNat ++ beOctets 4 version.toNat ++ index :: flags :: data)
  | .absent tag => some (0x22, tag, [])
  | .defer tag code => some (0x23, tag, [code])
  | .invalidate kind key version => some (0x24, 0, kind :: beOctets 4 key.toNat ++ beOctets 4 version.toNat)
  | .result tag attempt outcome versions =>
    some (0x25, tag, attempt :: outcome :: versions.flatMap fun v => beOctets 4 v.toNat)
  | .setLane seq a b c => some (mgmtPayload seq 0x01 [a, b, c])
  | .setDrop seq a b c => some (mgmtPayload seq 0x02 [a, b, c])
  | .setDay seq day => some (mgmtPayload seq 0x03 (beOctets 2 day.toNat))
  | .setOverride seq a => some (mgmtPayload seq 0x04 [a])
  | .quiesce seq => some (mgmtPayload seq 0x05 [])
  | .resumeService seq => some (mgmtPayload seq 0x06 [])
  | .flushCache seq => some (mgmtPayload seq 0x07 [])
  | .readStatus seq => some (mgmtPayload seq 0x08 [])
  | .readCounters seq a => some (mgmtPayload seq 0x09 [a])
  | .resetUnit seq _ => some (mgmtPayload seq 0x0A [])
  | .tableClear seq a => some (mgmtPayload seq 0x0B [a])
  | .tableWrite seq a b values => some (mgmtPayload seq 0x0C (a :: b :: values))
  | .tableClose seq a => some (mgmtPayload seq 0x0D [a])
  | .tableAbort seq => some (mgmtPayload seq 0x0E [])
  | .tableRead seq a b => some (mgmtPayload seq 0x0F [a, b])
  | .tableStatusClear seq => some (mgmtPayload seq 0x10 [])
  | .unknownCommand seq code args => some (mgmtPayload seq code args)
  | .resetLine _ | .powerLoss | .breakEnd _ | .gapEnd _ | .turnStart _ | .laneTransmitEnd _ | .laneCharacter ..
  | .frameGapTimeout _ | .quietWaitEnd _ | .answerWindowTimeout _ | .heldCharacterStands _ | .breakReceived _
  | .linkFrameError _ | .deferDelayEnd _ | .fetchTimeout _ | .commitTimeout _ | .transactionDeadline _
  | .transmitFrameEnd | .renew | .pay | .account | .hold | .cancel | .suspend | .resume | .clearComplete
  | .writeComplete | .closeComplete | .octetBoundaryFound => none

end Sys2Proof
end

