-- ==== Sys2Proof/Machine/Flags.lean ====
section
/-! DEFINITION. Counters and flags: how each counter advances (R22, R39, R192), the outcome classes of a
transaction (R57), and the stale flag of a cache entry (R79, R112, R113, R115). -/

namespace Sys2Proof.Machine

/-- A counter advances by 1 and stops at 65,535 (00, Counters). -/
def bump (c : Counter) : Counter := if c = 0xFFFF then c else c + 1

/-! ## Lane counters (R22) -/

/-- Which lane counter advances. -/
inductive LaneCounter where
  | framesTaken | nils | misses | badCharacters | truncated | addressErrors | breaks | repliesLost
deriving DecidableEq, Repr

/-- One lane counter advances. -/
def LaneCounters.advance (c : LaneCounters) : LaneCounter → LaneCounters
  | .framesTaken => { c with framesTaken := bump c.framesTaken }
  | .nils => { c with nils := bump c.nils }
  | .misses => { c with misses := bump c.misses }
  | .badCharacters => { c with badCharacters := bump c.badCharacters }
  | .truncated => { c with truncated := bump c.truncated }
  | .addressErrors => { c with addressErrors := bump c.addressErrors }
  | .breaks => { c with breaks := bump c.breaks }
  | .repliesLost => { c with repliesLost := bump c.repliesLost }

/-- The lane's counter advances. -/
def Lane.count (l : Lane) (c : LaneCounter) : Lane := { l with counters := l.counters.advance c }

/-- The eight counters in the order of R22. -/
def LaneCounters.toList (c : LaneCounters) : List Counter :=
  [c.framesTaken, c.nils, c.misses, c.badCharacters, c.truncated, c.addressErrors, c.breaks, c.repliesLost]

/-! ## Link counters (R39) -/

/-- Which link counter advances. -/
inductive LinkCounter where
  | framesTaken | crcLength | wrongUnit | unknownKind | relaysDropped | lateTags
deriving DecidableEq, Repr

/-- One link counter advances. -/
def LinkCounters.advance (c : LinkCounters) : LinkCounter → LinkCounters
  | .framesTaken => { c with framesTaken := bump c.framesTaken }
  | .crcLength => { c with crcLength := bump c.crcLength }
  | .wrongUnit => { c with wrongUnit := bump c.wrongUnit }
  | .unknownKind => { c with unknownKind := bump c.unknownKind }
  | .relaysDropped => { c with relaysDropped := bump c.relaysDropped }
  | .lateTags => { c with lateTags := bump c.lateTags }

/-- The link counter advances. -/
def Bli.count (b : Bli) (c : LinkCounter) : Bli := { b with counters := b.counters.advance c }

/-- The six counters in the order of R39. -/
def LinkCounters.toList (c : LinkCounters) : List Counter :=
  [c.framesTaken, c.crcLength, c.wrongUnit, c.unknownKind, c.relaysDropped, c.lateTags]

/-! ## Transaction counters (R192) -/

/-- Which transaction counter advances. -/
inductive TxnCounter where
  | accepted | committed | refused | failed | regathers | ruleWaits
deriving DecidableEq, Repr

/-- One transaction counter advances. -/
def TxnCounters.advance (c : TxnCounters) : TxnCounter → TxnCounters
  | .accepted => { c with accepted := bump c.accepted }
  | .committed => { c with committed := bump c.committed }
  | .refused => { c with refused := bump c.refused }
  | .failed => { c with failed := bump c.failed }
  | .regathers => { c with regathers := bump c.regathers }
  | .ruleWaits => { c with ruleWaits := bump c.ruleWaits }

/-- The six counters in the order of R192. -/
def TxnCounters.toList (c : TxnCounters) : List Counter :=
  [c.accepted, c.committed, c.refused, c.failed, c.regathers, c.ruleWaits]

/-- The transaction counter a final outcome advances (R57). -/
def ResultCode.outcomeCounter : ResultCode → TxnCounter
  | .renewed | .holdPlaced | .holdCancelled | .holdSuspended | .holdResumed | .paid | .accountInfo => .committed
  | .timeout | .uplinkBusy | .uplinkTimeout | .retryLater => .failed
  | _ => .refused

/-! ## The stale flag (R78, R79) -/

/-- A version `v` above the entry's is noted: the flag is set, and a noted version only rises (R79). -/
def Copy.noteVersion (c : Copy) (v : Version) : Copy :=
  match c.stale with
  | none => { c with stale := some v }
  | some n => { c with stale := some (if n.toNat < v.toNat then v else n) }

/-- A change notice or a STALE result names version `v` (R77, R79, R113): it acts when `v` is above the entry's. -/
def Copy.notice (c : Copy) (v : Version) : Copy := if c.version.toNat < v.toNat then c.noteVersion v else c

/-- The commit timeout sets the flag, noting the entry's own version where none was set (R79, R115). -/
def Copy.forceStale (c : Copy) : Copy :=
  match c.stale with
  | none => { c with stale := some c.version }
  | some _ => c

/-- The write-through of an APPLIED result and the settling of the stale flag (R80, R112 steps 1 and 2). -/
def Copy.writeThrough (c : Copy) (image : Image) (v : Version) : Copy :=
  { c with
    image := image
    version := v
    stale := match c.stale with
      | none => none
      | some n => if v.toNat < n.toNat then some n else none }

end Sys2Proof.Machine
end

