-- ==== Sys2Proof/Machine/Ops.lean ====
section
/-! DEFINITION. The operations every block shares: reading and writing lanes, contexts, entries and slots, the
lane reply queue (R20), the transmit queue (R33, R34), UM's reply list (R185) and the power gate (R182). -/

namespace Sys2Proof.Machine

/-! ## Reading and writing the tables of the state -/

/-- The sixteen contexts in number order. -/
def allContexts : List CtxId := [0, 1, 2, 3, 4, 5, 6, 7, 8, 9, 10, 11, 12, 13, 14, 15]
/-- The four fill slots in number order. -/
def allSlots : List SlotId := [0, 1, 2, 3]
/-- The four lanes in number order. -/
def allLanes : List LaneId := [0, 1, 2, 3]
/-- The eight drops in number order. -/
def allDrops : List DropId := [0, 1, 2, 3, 4, 5, 6, 7]

/-- A lane. -/
def State.lane (s : State) (i : LaneId) : Lane := s.lanes[i]
/-- The state with one lane replaced. -/
def State.setLane (s : State) (i : LaneId) (l : Lane) : State := { s with lanes := s.lanes.set i l }
/-- The state with one lane changed. -/
def State.mapLane (s : State) (i : LaneId) (f : Lane → Lane) : State := s.setLane i (f (s.lane i))

/-- A drop record. -/
def Lane.dropRec (l : Lane) (d : DropId) : DropRecord := l.drops[d]
/-- The lane with one drop record replaced. -/
def Lane.setDropRec (l : Lane) (d : DropId) (r : DropRecord) : Lane := { l with drops := l.drops.set d r }
/-- A drop that is SERVED or RELAYED is enrolled (R10). -/
def DropRecord.enrolled (r : DropRecord) : Bool := decide (r.enrolment ≠ .off)

/-- A context. -/
def State.ctx (s : State) (c : CtxId) : Context := s.dct.contexts[c]
/-- The transaction of a context, `none` when it is FREE. -/
def State.txn (s : State) (c : CtxId) : Option Txn := (s.ctx c).txn
/-- The state with one context replaced. -/
def State.setCtx (s : State) (c : CtxId) (x : Context) : State :=
  { s with dct := { s.dct with contexts := s.dct.contexts.set c x } }
/-- The state with a context's transaction replaced, its generation kept. -/
def State.setTxn (s : State) (c : CtxId) (t : Option Txn) : State := s.setCtx c ⟨(s.ctx c).gen, t⟩
/-- The state with a busy context's transaction changed. -/
def State.mapTxn (s : State) (c : CtxId) (f : Txn → Txn) : State := s.setTxn c ((s.txn c).map f)
/-- A transaction counter advances (R192). -/
def State.countTxn (s : State) (c : TxnCounter) : State :=
  { s with dct := { s.dct with counters := s.dct.counters.advance c } }
/-- A link counter advances (R39). -/
def State.countLink (s : State) (c : LinkCounter) : State := { s with bli := s.bli.count c }

/-- The pool of a record kind (R62). -/
def Cache.pool (r : Cache) : RecordKind → Pool
  | .patron => r.patron
  | .title => r.title
  | .item => r.item
/-- The cache with one pool replaced. -/
def Cache.setPool (r : Cache) (k : RecordKind) (p : Pool) : Cache :=
  match k with
  | .patron => { r with patron := p }
  | .title => { r with title := p }
  | .item => { r with item := p }
/-- The pool of a record kind. -/
def State.pool (s : State) (k : RecordKind) : Pool := s.rc.pool k
/-- The state with one pool replaced. -/
def State.setPool (s : State) (k : RecordKind) (p : Pool) : State := { s with rc := s.rc.setPool k p }
/-- An entry of a pool; a number beyond the pool reads EMPTY. -/
def Pool.entry (p : Pool) (n : Nat) : Entry := p.entries.getD n .empty
/-- The pool with one entry replaced. -/
def Pool.setEntry (p : Pool) (n : Nat) (e : Entry) : Pool := { p with entries := p.entries.set n e }
/-- The entry moves to the most recent place of its pool's order of use (R69), which holds the pool's entries alone. -/
def Pool.touch (p : Pool) (n : Nat) : Pool :=
  { p with lru := if n ∈ p.lru then p.lru.erase n ++ [n] else p.lru }
/-- A cache entry. -/
def State.entry (s : State) (k : RecordKind) (n : Nat) : Entry := (s.pool k).entry n
/-- The state with one cache entry replaced. -/
def State.setEntry (s : State) (k : RecordKind) (n : Nat) (e : Entry) : State :=
  s.setPool k ((s.pool k).setEntry n e)
/-- The entry moves to most recent. -/
def State.touch (s : State) (k : RecordKind) (n : Nat) : State := s.setPool k ((s.pool k).touch n)

/-- A fill slot. -/
def State.slot (s : State) (i : SlotId) : FillSlot := s.fu.slots[i]
/-- The state with one fill slot replaced. -/
def State.setSlot (s : State) (i : SlotId) (x : FillSlot) : State :=
  { s with fu := { s.fu with slots := s.fu.slots.set i x } }

/-- A commit record. -/
def State.commitRec (s : State) (c : CtxId) : CommitRecord := s.cu[c]
/-- The state with one commit record replaced. -/
def State.setCommitRec (s : State) (c : CtxId) (r : CommitRecord) : State := { s with cu := s.cu.set c r }

/-- A rule store block. -/
def RuleStore.block (r : RuleStore) (b : BlockId) : Block := r.blocks[b]
/-- The rule store with one block replaced. -/
def RuleStore.setBlock (r : RuleStore) (b : BlockId) (x : Block) : RuleStore :=
  { r with blocks := r.blocks.set b x }

/-! ## Power (R182) -/

/-- What a command does to a part that has power; an unpowered part takes no command (DESIGN CHOICE, log entry 5). -/
def live (f : State → State) (s : State) : State := if s.powered then f s else s

/-! ## The lane reply queue (R20) -/

/-- A reply offered to a lane's reply queue: the first test of R20 that applies decides. -/
def Lane.offer (l : Lane) (d : DropId) (body : List Octet) : Lane :=
  if l.mode = .isolated then l
  else if (l.dropRec d).enrolment = .off then l
  else if !bodyLengthOk body.length then l.count .repliesLost
  else if 16 ≤ l.replies.length then l.count .repliesLost
  else { l with replies := l.replies ++ [⟨d, body⟩] }

/-- A reply offered to lane `i` for drop `d` (R20). -/
def offerReply (i : LaneId) (d : DropId) (body : List Octet) (s : State) : State :=
  s.mapLane i (·.offer d body)

/-! ## The transmit queue (R33-R35) -/

/-- The transmitter, when idle, takes the oldest frame of the queue (R33). -/
def Bli.start (b : Bli) : Bli :=
  match b.transmitting, b.txQueue with
  | none, f :: fs => { b with transmitting := some f, txQueue := fs, sent := 0 }
  | _, _ => b

/-- A frame joins the tail of the transmit queue (R33). -/
def Bli.enqueue (b : Bli) (f : Frame) : Bli := { b with txQueue := b.txQueue ++ [f] }.start

/-- One octet time of BTCK: the transmitter sends the octet at its position, starting the oldest frame when it is idle;
with no frame it sends fill. The closing delimiter once sent, the position waits for TRANSMIT_FRAME_END (R25, R33). -/
def Bli.octetTime (b : Bli) : Bli :=
  let b' := b.start
  match b'.transmitting with
  | some f => { b' with sent := min (b'.sent + 1) (f.line b'.unitNumber).length }
  | none => b'

/-- One octet time of the part's transmit clock (R25). -/
def octetTime (s : State) : State := { s with bli := s.bli.octetTime }

/-- The frames held for the line: in transmission or waiting (R33). -/
def Bli.held (b : Bli) : List Frame := b.transmitting.toList ++ b.txQueue

/-- RELAY_UP frames held for the line (R34). -/
def Bli.relaysHeld (b : Bli) : Nat := b.held.countP Frame.isRelayUp

/-- A frame of the part's own is offered to the transmit queue, which always admits it (R35). -/
def sendFrame (f : Frame) (s : State) : State := { s with bli := s.bli.enqueue f }

/-- A RELAY_UP is offered: admitted while fewer than 19 are held for the line, else dropped and counted (R34). -/
def offerRelay (lane : LaneId) (drop : DropId) (body : List Octet) (s : State) : State :=
  if s.bli.relaysHeld < 19 then sendFrame (.relayUp lane drop body) s else s.countLink .relaysDropped

/-! ## Management replies (R185) -/

/-- When no MGMT_REPLY is held for the line, the oldest reply of the list is offered (R185). -/
def pumpReplies (s : State) : State :=
  match s.um.replyOnLine, s.um.replies with
  | false, r :: rs =>
    sendFrame (.mgmtReply r.seq r.command r.result r.fields)
      { s with um := { s.um with replies := rs, replyOnLine := true } }
  | _, _ => s

/-- A management reply is produced: it joins the tail of the reply list (R185). -/
def answer (seq command : Octet) (result : ResultCode) (fields : List Octet) (s : State) : State :=
  pumpReplies { s with um := { s.um with replies := s.um.replies ++ [⟨seq, command, result, fields⟩] } }

/-- The replies in the list with those still owed for an operation and a pending QUIESCE (R185). -/
def repliesOwed (s : State) : Nat :=
  s.um.replies.length + s.rs.operation.toList.length + s.um.pendingQuiesce.toList.length

/-! ## Idleness and the pending QUIESCE (R189) -/

/-- Busy contexts (R61). -/
def busyContexts (s : State) : Nat := allContexts.countP fun c => (s.txn c).isSome

/-- Fill slots in use (R104). -/
def slotsInUse (s : State) : Nat := allSlots.countP fun i => (s.slot i).fill.isSome

/-- The unit is idle: no busy context, no fill outstanding or waiting (R189). -/
def unitIdle (s : State) : Bool :=
  decide (busyContexts s = 0) && decide (slotsInUse s = 0) && s.fu.waiting.isEmpty

/-- The command code of QUIESCE (R201). -/
def quiesceCode : Octet := 0x05

/-- A unit that has become idle while QUIESCING becomes QUIESCED and answers the pending QUIESCE (R189). -/
def settleQuiesce (s : State) : State :=
  if s.um.service = .quiescing ∧ unitIdle s = true then
    let s' := { s with um := { s.um with service := .quiesced, pendingQuiesce := none } }
    match s.um.pendingQuiesce with
    | some seq => answer seq quiesceCode .done [] s'
    | none => s'
  else s

end Sys2Proof.Machine
end

