-- ==== Sys2Proof/Machine/Arithmetic.lean ====
section
/-! DEFINITION. The Adjudication Unit's rule reads (R121, R122, R138, R181) and its arithmetic: the fine (R124-R128),
the due day (R129-R132) and the payment (R135). Figures are exact natural numbers (R126). -/

namespace Sys2Proof.Machine

/-- Why a decision stops: a refusal with its code, or a rule wait on a block (R137). -/
inductive Stop where
  | refuse (code : ResultCode)
  | wait (block : BlockId)
deriving DecidableEq, Repr

/-! ## Rule reads -/

/-- The PC block (R169). -/
def pcBlock : BlockId := 12
/-- The LR block of a patron class 0-15 (R169). -/
def lrBlock (patronClass : Nat) : BlockId := ⟨patronClass / 4 % 4, by omega⟩
/-- The CAL block of a branch 0-63 (R169). -/
def calBlock (branch : Nat) : BlockId := ⟨4 + branch / 8 % 8, by omega⟩

/-- A rule read: served from a block that is VALID, a rule wait otherwise (R139, R181). A blank entry is `none`. -/
def readRule (r : RuleStore) (b : BlockId) (index : Nat) : Except Stop (Option RuleEntry) :=
  if (r.block b).content = .valid then .ok ((r.block b).entries.getD index none) else .error (.wait b)

/-- The patron class entry: a class above 15 is read as blank without a read (R121). -/
def readClass (r : RuleStore) (patronClass : Nat) : Except Stop (Option PatronClass) :=
  if 15 < patronClass then .ok none
  else do
    match ← readRule r pcBlock patronClass with
    | some (.patronClass p) => .ok (some p)
    | _ => .ok none

/-- The loan rule entry of a pairing: a class above 15 is read as blank without a read (R121). -/
def readLoanRule (r : RuleStore) (patronClass itemClass : Nat) : Except Stop (Option LoanRule) :=
  if 15 < patronClass ∨ 15 < itemClass then .ok none
  else do
    match ← readRule r (lrBlock patronClass) (patronClass % 4 * 16 + itemClass) with
    | some (.loanRule l) => .ok (some l)
    | _ => .ok none

/-- The calendar window base W (R121). -/
def readBase (r : RuleStore) : Except Stop (Option Nat) := do
  match ← readRule r pcBlock 16 with
  | some (.windowBase w) => .ok (some w)
  | _ => .ok none

/-- Is day `d` closed at branch `b` (R122)? A calendar entry is read only for a day inside the window. -/
def dayClosed (r : RuleStore) (b : Nat) (base : Option Nat) (d : Nat) : Except Stop Bool :=
  match base with
  | none => .ok false
  | some w =>
    if 63 < b ∨ d < w ∨ w + 511 < d then .ok false
    else do
      let offset := d - w
      match ← readRule r (calBlock b) (b % 8 * 8 + offset / 64) with
      | some (.calendar marks) => .ok (marks.getLsbD (offset % 64))
      | _ => .ok false

/-! ## The fine (R124-R128) -/

/-- Open days among the `n` days from `d` on (R125). -/
def chargeableDays (r : RuleStore) (b : Nat) (base : Option Nat) : (d n : Nat) → Except Stop Nat
  | _, 0 => .ok 0
  | d, n + 1 => do
    let closed ← dayClosed r b base d
    let rest ← chargeableDays r b base (d + 1) n
    .ok (rest + if closed then 0 else 1)

/-- The fine of `n` chargeable days: gross, cap, and the discount rounded to the nearest cent, a half down (R126,
R127). -/
def fineOfDays (n rate cap discount : Nat) : Nat := (min (n * rate) cap * (100 - discount) + 49) / 100

/-- The fine F of a renewal on day `today` of a loan due on day `due` (R124-R127). -/
def fineOf (r : RuleStore) (b : Nat) (rule : LoanRule) (discount due today : Nat) : Except Stop Nat :=
  if today - due ≤ rule.grace then .ok 0
  else do
    let base ← readBase r
    let n ← chargeableDays r b base (due + 1) (today - due)
    .ok (fineOfDays n rule.rate rule.cap discount)

/-! ## The new due day (R129-R132) -/

/-- The forward shift off closed days: at most `n` days, never past 65,535 (R130). Of its stops, 65,535 is
tested before the day is looked up (DESIGN CHOICE, log entry 37). -/
def shiftForward (r : RuleStore) (b : Nat) (base : Option Nat) : (n day : Nat) → Except Stop Nat
  | 0, day => .ok day
  | n + 1, day =>
    if 65535 ≤ day then .ok day
    else do
      if ← dayClosed r b base day then shiftForward r b base n (day + 1) else .ok day

/-- The candidate due day: the later of the present due day and today plus the loan days (R129). -/
def candidateDay (due today loanDays : Nat) : Nat := max due (min 65535 (today + loanDays))

/-- The new due day with its SHORTENED flag, `none` for NO_EXTENSION (R129-R132). -/
def newDueDay (r : RuleStore) (b loanDays due today expiry : Nat) : Except Stop (Option (Nat × Bool)) := do
  let base ← readBase r
  let shifted ← shiftForward r b base 31 (candidateDay due today loanDays)
  let day := min shifted expiry
  .ok (if day ≤ due then none else some (day, decide (expiry < shifted)))

/-! ## Payments (R135) -/

/-- The walk of an accepted amount over the fine list, oldest first (R135). -/
def payOff : (amount : Nat) → List Fine → List Fine
  | _, [] => []
  | a, f :: fs =>
    if a = 0 then f :: fs
    else if f.amount ≤ a then payOff (a - f.amount) fs
    else { f with amount := f.amount - a } :: fs

end Sys2Proof.Machine
end

