-- ==== Sys2Proof/Machine/CacheOps.lean ====
section
/-! DEFINITION. Lookup, allocation, eviction and wait lists of the record cache (R64-R70), and the fill slots' side
of an allocation: taking a fill up and making a FETCH due (R84-R86). -/

namespace Sys2Proof.Machine

/-! ## FETCH (R86) -/

/-- A FETCH becomes due for a slot: offered at once, or held back as the owed FETCH while an earlier FETCH of the
slot is on the line (R86). The fetch timer runs with the slot in REQUESTED (R87). -/
def fetchDue (i : SlotId) (first count : Nat) (s : State) : State :=
  let x := s.slot i
  match x.fill with
  | none => s
  | some f =>
    if x.onLine then s.setSlot i { x with fill := some { f with owed := some (first, count) } }
    else sendFrame (.fetch i x.gen f.kind f.key first count)
      (s.setSlot i { x with fill := some { f with owed := none }, onLine := true })

/-- A slot takes up the fill of an entry, at a new generation, and asks for the whole record (R84, R85). -/
def takeUp (i : SlotId) (w : WaitingFill) (s : State) : State :=
  let x := s.slot i
  fetchDue i 0 w.kind.segments <| s.setSlot i
    { x with
      gen := x.gen + 1
      fill := some
        { phase := .requested, kind := w.kind, entry := w.entry, key := w.key,
          received := List.replicate w.kind.segments none, version := none, highest := w.highest,
          defers := 0, owed := none } }

/-- The IDLE slot with the lowest number (R85). -/
def idleSlot (s : State) : Option SlotId := allSlots.find? fun i => (s.slot i).fill.isNone

/-- RC gives FU a fill: an IDLE slot takes it up, else it joins the fill waiting list (R85). -/
def giveFill (w : WaitingFill) (s : State) : State :=
  match idleSlot s with
  | some i => takeUp i w s
  | none => { s with fu := { s.fu with waiting := s.fu.waiting ++ [w] } }

/-- A finished slot becomes IDLE, keeping its generation and its mark, and takes up the head of the fill waiting
list (R96). -/
def finishSlot (i : SlotId) (s : State) : State :=
  let s' := s.setSlot i { s.slot i with fill := none }
  match s'.fu.waiting with
  | [] => s'
  | w :: ws => takeUp i w { s' with fu := { s'.fu with waiting := ws } }

/-! ## Entries and pools (R64-R70) -/

/-- The entry holds the key FILLING or VALID, so that a lookup finds it (R64). -/
def Entry.found (key : Key) : Entry → Bool
  | .filling k _ => decide (k = key)
  | .valid copy _ _ => decide (copy.key = key)
  | .empty | .transient .. => false

/-- The entry can be evicted: VALID, no lock owner, no waiter (R66). -/
def Entry.evictable : Entry → Bool
  | .valid _ none [] => true
  | _ => false

/-- The context leaves the entry's wait list, the others keeping their order (R70). -/
def Entry.dropWaiter (c : CtxId) : Entry → Entry
  | .filling key ws => .filling key (ws.filter (· ≠ c))
  | .valid copy o ws => .valid copy o (ws.filter (· ≠ c))
  | e => e

/-- The context joins the tail of the entry's wait list, unless it stands there already (R70). -/
def Entry.addWaiter (c : CtxId) : Entry → Entry
  | .filling key ws => .filling key (if c ∈ ws then ws else ws ++ [c])
  | .valid copy o ws => .valid copy o (if c ∈ ws then ws else ws ++ [c])
  | e => e

/-- The entry that holds a key FILLING or VALID (R64). -/
def Pool.find (p : Pool) (key : Key) : Option Nat := p.entries.findIdx? (Entry.found key)

/-- The entry an allocation takes: the lowest EMPTY one (R65), else the least recent that can be evicted (R66). -/
def Pool.room (p : Pool) : Option Nat :=
  match p.entries.findIdx? fun e => decide (e = .empty) with
  | some n => some n
  | none => p.lru.find? fun n => (p.entry n).evictable

/-- The context leaves the pool's allocation queue (R67). -/
def Pool.leaveQueue (p : Pool) (c : CtxId) : Pool := { p with queue := p.queue.filter (· ≠ c) }

/-- The context joins the tail of the allocation queue, or keeps its place there (R67). -/
def Pool.joinQueue (p : Pool) (c : CtxId) : Pool :=
  if c ∈ p.queue then p else { p with queue := p.queue ++ [c] }

/-- The context leaves every wait list and the allocation queue of the pool (R67, R70). -/
def Pool.dropWaiter (p : Pool) (c : CtxId) : Pool :=
  { p.leaveQueue c with entries := p.entries.map (Entry.dropWaiter c) }

/-- The context leaves any wait list, allocation queue, decision list or rule wait it is on (R53, R70, R136). -/
def leaveLists (c : CtxId) (s : State) : State :=
  { s with
    rc := ⟨s.rc.patron.dropWaiter c, s.rc.title.dropWaiter c, s.rc.item.dropWaiter c⟩
    au := ⟨s.au.list.filter (· ≠ c), s.au.waits.filter (· ≠ c)⟩ }

/-- A lookup (R64): the entry found VALID, or `none` when the context now waits for a fill or for room. -/
def lookup (c : CtxId) (k : RecordKind) (key : Key) (s : State) : State × Option Nat :=
  let p := s.pool k
  match p.find key with
  | some n =>
    match p.entry n with
    | .valid .. => (s.setPool k ((p.touch n).leaveQueue c), some n)
    | e => (s.setPool k ((p.setEntry n (e.addWaiter c)).leaveQueue c), none)
  | none =>
    match p.room with
    | some n =>
      (giveFill ⟨k, n, key, 0⟩
        (s.setPool k (((p.setEntry n (.filling key [c])).touch n).leaveQueue c)), none)
    | none => (s.setPool k (p.joinQueue c), none)

/-- The record a context can use through its reference: a VALID entry that still holds the key, or a TRANSIENT
entry it owns (R68). -/
def goodCopy (c : CtxId) (k : RecordKind) (key : Key) (n : Nat) (s : State) : Option Copy :=
  match s.entry k n with
  | .valid copy _ _ => if copy.key = key then some copy else none
  | .transient copy _ o => if o = c then some copy else none
  | .empty | .filling .. => none

/-- The occupancy of a pool: its entries that are not EMPTY (R82). -/
def Pool.occupancy (p : Pool) : Nat := p.entries.countP fun e => decide (e ≠ .empty)

end Sys2Proof.Machine
end

