-- ==== Sys2Proof/Machine/ContextOps.lean ====
section
/-! DEFINITION. The life of a context: gathering records and locks (R48-R50), entering DECIDE (R51, R60), releasing
(R73, R76), regathering (R53), ending (R57) and aborts (R59). What one event sets off in other contexts (a lock
handed on, a lookup repeated, a fill failure) is a list of tasks carried out in order, each task's own
consequences before the tasks behind it. -/

namespace Sys2Proof.Machine

/-- One consequence of an event, carried out whole. -/
inductive Task where
  /-- A context in GATHER goes on: its next lookup, lock or entry into DECIDE (R49, R50). -/
  | resume (c : CtxId)
  /-- A pool has freed room: the lookups of its allocation queue are repeated (R67). -/
  | retry (k : RecordKind)
  /-- A regather cause reaches a context (R53). -/
  | regather (c : CtxId)
deriving DecidableEq, Repr

/-! ## Needs (R46, R48) -/

/-- The need of a record kind. -/
def Txn.need (t : Txn) : RecordKind → Option Need
  | .patron => t.patron
  | .title => t.title
  | .item => t.item

/-- The transaction with one need replaced. -/
def Txn.setNeed (t : Txn) (k : RecordKind) (n : Option Need) : Txn :=
  match k with
  | .patron => { t with patron := n }
  | .title => { t with title := n }
  | .item => { t with item := n }

/-- A need whose record has not been looked up. -/
def freshNeed (key : Key) : Need := ⟨key, none, false⟩

/-- The need with its reference cleared (R50, R53). -/
def Need.clear (n : Need) : Need := freshNeed n.key

/-- The context records the entry found for a need (R49). -/
def Txn.found (t : Txn) (k : RecordKind) (n : Nat) (held : Bool) : Txn :=
  t.setNeed k ((t.need k).map fun x => ⟨x.key, some n, held⟩)

/-- The context clears the reference of a need (R50). -/
def Txn.lose (t : Txn) (k : RecordKind) : Txn := t.setNeed k ((t.need k).map Need.clear)

/-- Is the request a RENEW? -/
def Request.isRenew : Request → Bool
  | .renew .. => true
  | _ => false

/-- Is the request an ACCOUNT? -/
def Request.isAccount : Request → Bool
  | .account _ => true
  | _ => false

/-- The first need with no entry, in the order patron, title, item (R49). -/
def Txn.missing (t : Txn) : Option (RecordKind × Key) :=
  RecordKind.order.findSome? fun k =>
    match t.need k with
    | some ⟨key, none, _⟩ => some (k, key)
    | _ => none

/-- The first need whose lock is not held, in the order patron, title, item (R50). -/
def Txn.unlocked (t : Txn) : Option (RecordKind × Key × Nat) :=
  RecordKind.order.findSome? fun k =>
    match t.need k with
    | some ⟨key, some n, false⟩ => some (k, key, n)
    | _ => none

/-- The needs a transaction starts with (R47, R48): no entry reference, a RENEW's title need not yet settled. -/
def Txn.startNeeds (t : Txn) : Txn :=
  { t with
    patron := some (freshNeed t.request.patronKey)
    title := t.request.titleKey.map freshNeed
    item := t.request.itemKey.map freshNeed
    titleSettled := !t.request.isRenew }

/-! ## Releasing (R73, R76) -/

/-- A context lets go of one entry. A lock is emptied when stale, its waiters looking up again in order; else it
passes to the oldest waiter; else the entry stays unlocked (R73). An owned TRANSIENT entry becomes EMPTY (R76). -/
def releaseEntry (c : CtxId) (k : RecordKind) (n : Nat) (s : State) : State × List Task :=
  match s.entry k n with
  | .valid copy (some o) ws =>
    if o ≠ c then (s, [])
    else if copy.stale.isSome then
      (ws.foldl (fun s w => s.mapTxn w (·.lose k)) (s.setEntry k n .empty), ws.map .resume ++ [.retry k])
    else match ws with
      | [] => (s.setEntry k n (.valid copy none []), [.retry k])
      | w :: rest =>
        (((s.setEntry k n (.valid copy (some w) rest)).touch k n).mapTxn w (·.found k n true), [.resume w])
  | .transient _ _ o => if o = c then (s.setEntry k n .empty, [.retry k]) else (s, [])
  | _ => (s, [])

/-- A context lets go of one need's entry if it holds it. -/
def releaseNeed (c : CtxId) (t : Txn) (k : RecordKind) (s : State) : State × List Task :=
  match t.need k with
  | some ⟨_, some n, true⟩ => releaseEntry c k n s
  | _ => (s, [])

/-- Does the context own the entry as TRANSIENT? -/
def ownsTransient (c : CtxId) (k : RecordKind) (x : Option Need) (s : State) : Bool :=
  match x with
  | some ⟨_, some n, _⟩ =>
    match s.entry k n with
    | .transient _ _ o => decide (o = c)
    | _ => false
  | _ => false

/-- A context releases its lock on one need's entry; an entry it owns as TRANSIENT is no lock and stays its own. -/
def releaseLock (c : CtxId) (t : Txn) (k : RecordKind) (s : State) : State × List Task :=
  if ownsTransient c k (t.need k) s then (s, []) else releaseNeed c t k s

/-- One release for each record kind, in the order patron, title, item, with what each sets off in turn. -/
def eachKind (f : RecordKind → State → State × List Task) (s : State) : State × List Task :=
  let p := f .patron s
  let q := f .title p.1
  let r := f .item q.1
  (r.1, p.2 ++ q.2 ++ r.2)

/-- A context lets go of all it holds: every lock, then every TRANSIENT entry it owns (R53 steps 1 and 2, R57 step 2).
The order among its pools is patron, title, item, and what the releases set off follows when all of them are made, the
consequences of one carried to their end before those of the next (DESIGN CHOICE, log entry 36). -/
def releaseAll (c : CtxId) (t : Txn) (s : State) : State × List Task :=
  let locks := eachKind (releaseLock c t) s
  let owned := eachKind (releaseNeed c t) locks.1
  (owned.1, locks.2 ++ owned.2)

/-! ## Ending, regathering, freeing (R53, R57, R59) -/

/-- The context becomes FREE, keeping its generation, and lets go of all it holds (R57 steps 2 and 3, R59). -/
def freeCtx (c : CtxId) (s : State) : State × List Task :=
  match s.txn c with
  | none => (s, [])
  | some t => releaseAll c t ((leaveLists c s).setTxn c none)

/-- The context ends with a final outcome: its reply is offered unless it is ABANDONED, a transaction counter
advances, and it becomes FREE (R57, R58). -/
def endCtx (c : CtxId) (code : ResultCode) (fields : List Octet) (s : State) : State × List Task :=
  match s.txn c with
  | none => (s, [])
  | some t =>
    let s' := if t.abandoned then s
      else offerReply t.lane t.drop (replyBody t.request.kindCode t.kioskTag code fields) s
    freeCtx c (s'.countTxn code.outcomeCounter)

/-- The transaction as a regather leaves it (R53 steps 4 and 5). -/
def Txn.regathered (t : Txn) : Txn :=
  { t.startNeeds with
    state := .gather
    regathers := t.regathers + 1
    day := none
    patronCopy := none
    ruleWait := none
    outstanding := none }

/-- A regather cause reaches a context (R53): an ABANDONED one ends without a reply (R59), one at the limit ends
with RETRY_LATER, and one whose deadline has passed ends on it as it returns to GATHER (R55). Any other makes its own first
lookup after all that its releases set off in other contexts (DESIGN CHOICE, log entry 44). -/
def regather (c : CtxId) (s : State) : State × List Task :=
  match s.txn c with
  | none => (s, [])
  | some t =>
    if t.abandoned then freeCtx c s
    else if 2 ≤ t.regathers then endCtx c .retryLater [] s
    else
      let r := releaseAll c t ((leaveLists c s).setTxn c (some t.regathered))
      let s' := r.1.countTxn .regathers
      match t.deadline with
      | .running => (s', r.2 ++ [.resume c])
      | .passed =>
        let e := endCtx c .timeout [] s'
        (e.1, r.2 ++ e.2)

/-- A lane or drop abort reaches one context (R59): freed in GATHER or DECIDE, marked ABANDONED in COMMIT. -/
def abortCtx (c : CtxId) (s : State) : State × List Task :=
  match s.txn c with
  | none => (s, [])
  | some t =>
    match t.state with
    | .gather | .decide => freeCtx c s
    | .commit => (s.setTxn c (some { t with abandoned := true }), [])

/-- Contexts end with one code, in their order, before anything that their ends set off (R103). -/
def endEach (code : ResultCode) : List CtxId → State → State × List Task
  | [], s => (s, [])
  | c :: cs, s =>
    let r := endCtx c code [] s
    let q := endEach code cs r.1
    (q.1, r.2 ++ q.2)

/-- An abort acts on every busy context a test names, in number order (R59, DESIGN CHOICE, log entry 35). -/
def abortWhere (test : Txn → Bool) : List CtxId → State → State × List Task
  | [], s => (s, [])
  | c :: cs, s =>
    if (s.txn c).any test then
      let r := abortCtx c s
      let q := abortWhere test cs r.1
      (q.1, r.2 ++ q.2)
    else abortWhere test cs s

/-! ## Gathering (R48-R51, R60) -/

/-- The context enters DECIDE, samples the county day and joins AU's decision list (R51, R136). -/
def enterDecide (c : CtxId) (t : Txn) (s : State) : State :=
  let s' := s.setTxn c (some { t with state := .decide, day := some s.um.day, ruleWait := none })
  { s' with au := { s'.au with list := if c ∈ s'.au.list then s'.au.list else s'.au.list ++ [c] } }

/-- A RENEW's title need as an item image settles it (R48, R142). -/
def Txn.settleTitle (t : Txn) (item : Image) : Txn :=
  { t with title := (titleNeedOf item t.request.patronKey).map freshNeed, titleSettled := true }

/-- The needs with every lock released: TRANSIENT ownership of the patron and the item is no lock and stays. -/
def Need.unlock (owned : Bool) (n : Need) : Need := { n with held := owned }

/-- The transaction with its title need settled again and no lock held (R50). -/
def Txn.resettled (c : CtxId) (t : Txn) (item : Image) (s : State) : Txn :=
  { t.settleTitle item with
    patron := t.patron.map (Need.unlock (ownsTransient c .patron t.patron s))
    item := t.item.map (Need.unlock (ownsTransient c .item t.item s)) }

/-- After its last lock a RENEW context finds its title need changed: it releases all its locks, settles the need
again from the item image and continues in GATHER (R50, DEDUCED, log entry 19). What the releases set off follows when all
are made, for patron, title and item in turn, and the context itself goes on last (DESIGN CHOICE, log entry 41). -/
def resettle (c : CtxId) (t : Txn) (item : Image) (s : State) : State × List Task :=
  let p := releaseLock c t .patron (s.setTxn c (some (t.resettled c item s)))
  let q := releaseNeed c t .title p.1
  let r := releaseLock c t .item q.1
  (r.1, p.2 ++ q.2 ++ r.2 ++ [.resume c])

/-- All needed records are present and locked: a RENEW reads the item once more (R50); the rest enter DECIDE. -/
def allLocked (c : CtxId) (t : Txn) (s : State) : State × List Task :=
  match t.request.isRenew, t.item with
  | true, some ⟨key, some n, _⟩ =>
    match goodCopy c .item key n s with
    | some copy =>
      if titleNeedOf copy.image t.request.patronKey = t.title.map Need.key then (enterDecide c t s, [])
      else resettle c t copy.image s
    | none => (s.setTxn c (some (t.lose .item)), [.resume c])
  | _, _ => (enterDecide c t s, [])

/-- A lock request (R72, R50): granted, queued at the tail of the wait list, or the reference is no longer good. -/
def requestLock (c : CtxId) (t : Txn) (k : RecordKind) (key : Key) (n : Nat) (s : State) : State × List Task :=
  let granted := s.setTxn c (some (t.found k n true))
  let lost := (s.setTxn c (some (t.lose k)), [Task.resume c])
  match s.entry k n with
  | .valid copy owner ws =>
    if copy.key ≠ key then lost
    else match owner with
      | none => ((granted.setEntry k n (.valid copy (some c) ws)).touch k n, [.resume c])
      | some o =>
        if o = c then (granted, [.resume c])
        else (s.setEntry k n ((Entry.valid copy owner ws).addWaiter c), [])
  | .transient _ _ o => if o = c then (granted, [.resume c]) else lost
  | .empty | .filling .. => lost

/-- An ACCOUNT context copies the patron image and enters DECIDE without a lock (R60). -/
def copyPatron (c : CtxId) (t : Txn) (s : State) : State × List Task :=
  match t.patron with
  | some ⟨key, some n, _⟩ =>
    match goodCopy c .patron key n s with
    | some copy => (enterDecide c { t with patronCopy := some copy.image } (s.touch .patron n), [])
    | none => (s.setTxn c (some (t.lose .patron)), [.resume c])
  | _ => (s, [])

/-- Does a RENEW context have its item present and its title need still unsettled (R48)? -/
def Txn.settlesNow (t : Txn) : Option (Key × Nat) :=
  match t.titleSettled, t.item with
  | false, some ⟨key, some n, _⟩ => some (key, n)
  | _, _ => none

/-- A context in GATHER takes its next step: settling its title need (R48), the next lookup (R49), the copy of an
ACCOUNT (R60), the next lock (R50), or entry into DECIDE (R51). -/
def resumeCtx (c : CtxId) (s : State) : State × List Task :=
  match s.txn c with
  | none => (s, [])
  | some t =>
    if t.state ≠ .gather then (s, [])
    else match t.settlesNow with
      | some (key, n) =>
        match goodCopy c .item key n s with
        | some copy => (s.setTxn c (some (t.settleTitle copy.image)), [.resume c])
        | none => (s.setTxn c (some (t.lose .item)), [.resume c])
      | none =>
        match t.missing with
        | some (k, key) =>
          match lookup c k key s with
          | (s', some n) => (s'.setTxn c (some (t.found k n false)), [.resume c])
          | (s', none) => (s', [])
        | none =>
          if t.request.isAccount then copyPatron c t s
          else match t.unlocked with
            | some (k, key, n) => requestLock c t k key n s
            | none => allLocked c t s

/-! ## The consequences of an event -/

/-- One task carried out, with the tasks it sets off. -/
def doTask : Task → State → State × List Task
  | .resume c, s => resumeCtx c s
  | .retry k, s => (s, (s.pool k).queue.map .resume)
  | .regather c, s => regather c s

/-- Tasks carried out in order, what a task sets off before the tasks behind it, so that each context of a wait list or
allocation queue goes on as far as it can before the next one does (DESIGN CHOICE, log entry 42); `fuel` bounds their
number. -/
def runTasks : (fuel : Nat) → List Task → State → State
  | 0, _, s => s
  | _, [], s => s
  | fuel + 1, t :: ts, s => runTasks fuel ((doTask t s).2 ++ ts) (doTask t s).1

/-- The bound on the tasks of one event; no event of the manual sets off as many (DESIGN CHOICE, log entry 16). -/
def taskBound : Nat := 65536

/-- A pool's freed room is offered to its allocation queue at once, with all that follows from it (R67, R103). -/
def offerRoom (k : RecordKind) (s : State) : State := runTasks taskBound [.retry k] s

/-- An event is carried to its end: its tasks, then the idleness a QUIESCE waits for (R189). -/
def settle (r : State × List Task) : State := settleQuiesce (runTasks taskBound r.2 r.1)

/-! ## Lane and drop aborts (R59) -/

/-- DCT aborts the transactions of a lane (R5, R59). -/
def abortLane (i : LaneId) (s : State) : State :=
  settle (abortWhere (fun t => decide (t.lane = i)) allContexts s)

/-- DCT aborts the transactions of a drop (R10, R59). -/
def abortDrop (i : LaneId) (d : DropId) (s : State) : State :=
  settle (abortWhere (fun t => decide (t.lane = i ∧ t.drop = d)) allContexts s)

end Sys2Proof.Machine
end

