-- ==== Sys2Proof/Machine/Commits.lean ====
section
/-! DEFINITION. The Commit Unit (R106-R119): building and queuing an UPDATE, taking a RESULT, the commit timeout; the
transaction deadline (R55); and the end of a frame's transmission (R33, R86, R109, R185). -/

namespace Sys2Proof.Machine

/-- The record images a decision hands over: `none` for a record it leaves unchanged (R137). -/
structure NewImages where
  patron : Option Image
  title : Option Image
  item : Option Image
deriving DecidableEq, Repr

/-- The new image of a record kind. -/
def NewImages.image (x : NewImages) : RecordKind → Option Image
  | .patron => x.patron
  | .title => x.title
  | .item => x.item

/-- The record a context reads through a need (R68). -/
def readCopy (c : CtxId) (t : Txn) (k : RecordKind) (s : State) : Option Copy :=
  match t.need k with
  | some ⟨key, some n, _⟩ => goodCopy c k key n s
  | _ => none

/-- The UPDATE entry of one held record: CHANGED with a new image, else CHECKED (R107, R108). -/
def updateEntry (c : CtxId) (t : Txn) (x : NewImages) (s : State) (k : RecordKind) : Option UpdateEntry :=
  match t.need k, readCopy c t k s with
  | some ⟨key, some n, _⟩, some copy => some ⟨k, n, key, copy.version, x.image k⟩
  | _, _ => none

/-- The UPDATE CU builds: the held records in the order patron, title, item (R107). -/
def updateEntries (c : CtxId) (t : Txn) (x : NewImages) (s : State) : List UpdateEntry :=
  RecordKind.order.filterMap (updateEntry c t x s)

/-- The payment reference of a PAY (R108). -/
def Request.reference : Request → Option (BitVec 64)
  | .pay _ _ r => some r
  | _ => none

/-- CU offers an UPDATE frame, or holds it back while one of the context is on the line (R109). -/
def offerUpdate (c : CtxId) (f : Frame) (s : State) : State :=
  let r := s.commitRec c
  if r.onLine then s.setCommitRec c { r with timerRunning := true, owed := some f }
  else sendFrame f (s.setCommitRec c { r with timerRunning := true, onLine := true, owed := none })

/-- A success that changes records: the UPDATE is queued and the context enters COMMIT (R51, R109). -/
def queueUpdate (c : CtxId) (x : NewImages) (success : ResultCode) (fields : List Octet) (s : State) : State :=
  match s.txn c with
  | none => s
  | some t =>
    let entries := updateEntries c t x s
    let o : Outstanding := ⟨t.regathers, entries, t.request.reference, success, fields⟩
    offerUpdate c (.update c (s.ctx c).gen t.regathers entries t.request.reference)
      (s.setTxn c (some { t with state := .commit, outstanding := some o }))

/-- The commit outcome is taken: the timer stops, the outstanding UPDATE clears and an owed frame is dropped (R56,
R109, R111). -/
def takeOutcome (c : CtxId) (s : State) : State :=
  let s' := s.setCommitRec c { s.commitRec c with timerRunning := false, owed := none }
  s'.mapTxn c fun t => { t with outstanding := none }

/-- The context's held copy of an UPDATE entry changes (R79, R80): VALID and locked by it, or TRANSIENT and owned. -/
def mapHeldCopy (c : CtxId) (k : RecordKind) (n : Nat) (f : Copy → Copy) (s : State) : State :=
  match s.entry k n with
  | .valid copy (some o) ws => if o = c then s.setEntry k n (.valid (f copy) (some o) ws) else s
  | .transient copy tainted o => if o = c then s.setEntry k n (.transient (f copy) tainted o) else s
  | _ => s

/-- Is the entry VALID and locked by the context, or TRANSIENT and owned by it? -/
def holdsEntry (c : CtxId) (k : RecordKind) (n : Nat) (s : State) : Bool :=
  match s.entry k n with
  | .valid _ (some o) _ | .transient _ _ o => decide (o = c)
  | _ => false

/-- One entry of an APPLIED result: a CHANGED entry is written through and moves to most recent; a CHECKED one keeps
its image, version and stale flag (R80, R112). -/
def applyEntry (c : CtxId) (e : UpdateEntry) (v : Version) (s : State) : State :=
  match e.image with
  | none => s
  | some image =>
    if holdsEntry c e.kind e.entry s then
      (mapHeldCopy c e.kind e.entry (·.writeThrough image v) s).touch e.kind e.entry
    else s

/-- The entries of an APPLIED result, each with its version (R112). -/
def applyEntries (c : CtxId) : List (UpdateEntry × Version) → State → State
  | [], s => s
  | (e, v) :: es, s => applyEntries c es (applyEntry c e v s)

/-- A STALE result marks the entries whose reported version is above their own (R113). -/
def staleEntries (c : CtxId) : List (UpdateEntry × Version) → State → State
  | [], s => s
  | (e, v) :: es, s => staleEntries c es (mapHeldCopy c e.kind e.entry (·.notice v) s)

/-- The commit timeout marks every named entry (R115). -/
def timeoutEntries (c : CtxId) : List UpdateEntry → State → State
  | [], s => s
  | e :: es, s => timeoutEntries c es (mapHeldCopy c e.kind e.entry Copy.forceStale s)

/-- The outcomes of a RESULT (R195). -/
inductive Outcome where
  | applied
  | stale
  | refused
deriving DecidableEq, Repr

/-- The outcome an octet names (R111 test 3, R195). -/
def Outcome.ofCode (o : Octet) : Option Outcome :=
  if o = 1 then some .applied else if o = 2 then some .stale else if o = 3 then some .refused else none

/-- The UPDATE a RESULT is for, by the tests of R111 in order. -/
def resultFor (tag : Tag) (attempt outcome : Octet) (versions : List Version) (s : State) :
    Option (CtxId × Outstanding × Outcome) :=
  if h : tagSlot tag < 16 then
    let c : CtxId := ⟨tagSlot tag, h⟩
    match s.txn c with
    | some t =>
      if t.state = .commit ∧ (s.ctx c).gen = tagGen tag then
        match t.outstanding, Outcome.ofCode outcome with
        | some o, some r =>
          if attempt.toNat = o.attempt ∧ versions.length = o.entries.length then some (c, o, r) else none
        | _, _ => none
      else none
    | none => none
  else none

/-- CU takes a RESULT (R111-R114). -/
def takeResult (tag : Tag) (attempt outcome : Octet) (versions : List Version) (s : State) : State :=
  match resultFor tag attempt outcome versions s with
  | none => s.countLink .lateTags
  | some (c, o, r) =>
    let s' := takeOutcome c s
    match r with
    | .applied => settle (endCtx c o.success o.fields (applyEntries c (o.entries.zip versions) s'))
    | .stale => settle (regather c (staleEntries c (o.entries.zip versions) s'))
    | .refused => settle (endCtx c .commitRefused [] s')

/-- A context's commit timer runs out (R115). -/
def commitTimerOut (c : CtxId) (s : State) : State :=
  if (s.commitRec c).timerRunning then
    match s.txn c with
    | some t =>
      match t.state, t.outstanding with
      | .commit, some o => settle (endCtx c .uplinkTimeout [] (timeoutEntries c o.entries (takeOutcome c s)))
      | _, _ => s
    | none => s
  else s

/-- A context's transaction deadline falls (R55). -/
def deadlineFalls (c : CtxId) (s : State) : State :=
  match s.txn c with
  | none => s
  | some t =>
    match t.state with
    | .gather | .decide => settle (endCtx c .timeout [] s)
    | .commit => s.setTxn c (some { t with deadline := .passed })

/-! ## The end of a frame's transmission (R33) -/

/-- BLI tells the sender that its frame has been sent: the mark clears, and an owed frame is offered (R86, R109,
R185). -/
def frameSent (f : Frame) (s : State) : State :=
  match f with
  | .fetch i .. =>
    let x := s.slot i
    let s' := s.setSlot i { x with onLine := false }
    match x.fill with
    | some f =>
      match f.owed with
      | some (first, count) => fetchDue i first count s'
      | none => s'
    | none => s'
  | .update c .. =>
    let r := s.commitRec c
    match r.owed with
    | some f => sendFrame f (s.setCommitRec c { r with onLine := true, owed := none })
    | none => s.setCommitRec c { r with onLine := false }
  | .mgmtReply .. => pumpReplies { s with um := { s.um with replyOnLine := false } }
  | .relayUp .. | .unitStarted _ => s

/-- The closing delimiter of the frame in transmission has been sent (R33, DEDUCED, log entry 7); with no frame held for the
line nothing changes (DESIGN CHOICE, log entry 10). -/
def endFrame (s : State) : State :=
  let b := s.bli.start
  match b.transmitting with
  | none => s
  | some f => frameSent f { s with bli := { b with transmitting := none, sent := 0 }.start }

end Sys2Proof.Machine
end

