-- ==== Sys2Proof/Machine/Adjudication.lean ====
section
/-! DEFINITION. The decisions of AU as functions of the request, the images, the day of decision and the rule
tables (R141-R151, R159-R166), and the taking of a decision from the decision list (R136, R137, R139). -/

namespace Sys2Proof.Machine

/-- What a decision ends in (R137). -/
inductive Verdict where
  /-- A refusal with its code. -/
  | refuse (code : ResultCode)
  /-- A success that changes no record. -/
  | succeed (code : ResultCode) (fields : List Octet)
  /-- A success that changes records. -/
  | commit (code : ResultCode) (fields : List Octet) (images : NewImages)
  /-- A rule wait. -/
  | wait (block : BlockId)
deriving DecidableEq, Repr

/-- What a decision hands to its context. -/
structure Decision where
  verdict : Verdict
deriving DecidableEq, Repr

/-- The verdict of a computation that may stop. -/
def verdictOf : Except Stop Verdict → Verdict
  | .ok v => v
  | .error (.refuse code) => .refuse code
  | .error (.wait b) => .wait b

/-- A check of a decision: the code on failure. -/
def check (holds : Bool) (code : ResultCode) : Except Stop Unit :=
  if holds then .ok () else .error (.refuse code)

/-! ## RENEW (R141-R147) -/

/-- Checks 1 to 3, on the item image alone (R142). -/
def renewItemChecks (patron : Key) (item : Image) : Except Stop Unit := do
  check (loanPresent item) .notOnLoan
  check (decide (borrower item = patron)) .notYours
  check (decide (itemTitle item ≠ 0)) .unknownTitle

/-- Checks 4 to 8, on the patron and item images and the rule entries (R143, R144). -/
def renewRuleChecks (r : RuleStore) (today : Nat) (patron item : Image) :
    Except Stop (PatronClass × LoanRule) := do
  check (decide (today < cardExpiry patron)) .cardExpired
  check (!manualBlock patron) .blocked
  let cls ← readClass r (patronClassOf patron)
  let rule ← readLoanRule r (patronClassOf patron) (itemClass item)
  match cls, rule with
  | some cls, some rule =>
    check (decide (rule.renewable = 1)) .notRenewable
    check (decide (renewalsUsed item < rule.maxRenewals)) .limitReached
    .ok (cls, rule)
  | _, _ => .error (.refuse .noRule)

/-- The active waiting holds of patrons other than the borrower (R145). -/
def othersWaiting (borrower today : Nat) (title : Image) : Nat :=
  (holdList title).countP fun h => decide (h.patron ≠ borrower) && h.activeWaiting today

/-- The patron image of a renewal with its fine appended (R128, R134, R147). The fine's item number is that of the item
image, octets 0 to 3 (DESIGN CHOICE, log entry 38). -/
def appendFine (patron item : Image) (fine today : Nat) : Image :=
  putFines patron (fineList patron ++ [⟨itemNumber item, fine, today⟩])

/-- Checks 9 to 12 with the fine and the due day, and what a successful renewal writes and answers (R145-R147). -/
def renewOutcome (r : RuleStore) (today : Nat) (patronKey : Key) (patron title item : Image)
    (cls : PatronClass) (rule : LoanRule) : Except Stop Verdict := do
  check (decide (othersWaiting patronKey.toNat today title ≤ freeCopies title)) .heldForOther
  let fine ← fineOf r (owningBranch item) rule cls.discount (dueDay item) today
  check (decide (fine = 0 ∨ (fineList patron).length < 12)) .finesFull
  check (decide (balanceOf (fineList patron) + fine < cls.threshold)) .blocked
  match ← newDueDay r (owningBranch item) rule.loanDays (dueDay item) today (cardExpiry patron) with
  | none => .error (.refuse .noExtension)
  | some (due, shortened) =>
    .ok (.commit .renewed
      (beOctets 2 due ++ beOctets 2 fine ++
        [octet (rule.maxRenewals - (renewalsUsed item + 1)), if shortened then 1 else 0])
      ⟨if fine = 0 then none else some (appendFine patron item fine today), none, some (putRenewal item due)⟩)

/-- The RENEW decision (R141). -/
def decideRenew (r : RuleStore) (today : Nat) (patronKey : Key) (patron title item : Image) : Decision :=
  match renewItemChecks patronKey item with
  | .error e => ⟨verdictOf (.error e)⟩
  | .ok () =>
    match renewRuleChecks r today patron item with
    | .error e => ⟨verdictOf (.error e)⟩
    | .ok (cls, rule) =>
      ⟨verdictOf (renewOutcome r today patronKey patron title item cls rule)⟩

/-! ## PAY (R148, R149) -/

/-- The PAY decision (R148, R135). -/
def decidePay (amount : Nat) (patron : Image) : Decision :=
  if amount < 1 ∨ 99999 < amount then ⟨.refuse .badRequest⟩
  else
    let fines := fineList patron
    let balance := balanceOf fines
    if balance = 0 then ⟨.refuse .nothingOwed⟩
    else
      let accepted := min amount balance
      ⟨.commit .paid (beOctets 4 accepted ++ beOctets 4 (balance - accepted))
        ⟨some (putFines patron (payOff accepted fines)), none, none⟩⟩

/-! ## ACCOUNT (R150, R151) -/

/-- The blocked indication (R151). -/
def blockedIndication (patron : Image) (cls : Option PatronClass) : Bool :=
  manualBlock patron ||
    match cls with
    | none => true
    | some cls => decide (cls.threshold ≤ balanceOf (fineList patron))

/-- The fields of ACCOUNT_INFO (R150, R194). -/
def accountFields (patron : Image) (blocked : Bool) : List Octet :=
  let fines := fineList patron
  let oldest := fines.headD ⟨0, 0, 0⟩
  beOctets 4 (balanceOf fines) ++ [octet fines.length] ++ beOctets 2 oldest.amount ++ beOctets 2 oldest.day ++
    [octet (holdsCount patron)] ++ beOctets 2 (cardExpiry patron) ++ [if blocked then 1 else 0]

/-- The ACCOUNT decision, from the copy of the patron image (R150, R151). -/
def decideAccount (r : RuleStore) (copy : Image) : Decision :=
  ⟨verdictOf (do
    let cls ← readClass r (patronClassOf copy)
    .ok (.succeed .accountInfo (accountFields copy (blockedIndication copy cls))))⟩

/-! ## HOLD, CANCEL, SUSPEND, RESUME (R159-R166) -/

/-- The patron's hold in a hold list (R154). -/
def holdOf (patron : Key) (holds : List Hold) : Option Hold := holds.find? fun h => decide (h.patron = patron.toNat)

/-- The patron image of a HOLD or CANCEL: the holds count changed, the fine list packed (R158). -/
def patronWithHolds (patron : Image) (count : Nat) : Image :=
  putHoldsCount (putFines patron (fineList patron)) count

/-- Checks 2 to 4 of a HOLD, on the patron image and the class entry (R159, R160). -/
def holdPatronChecks (r : RuleStore) (today : Nat) (patron : Image) : Except Stop PatronClass := do
  check (decide (today < cardExpiry patron)) .cardExpired
  check (!manualBlock patron) .blocked
  match ← readClass r (patronClassOf patron) with
  | none => .error (.refuse .noRule)
  | some cls =>
    check (decide (balanceOf (fineList patron) < cls.threshold)) .blocked
    .ok cls

/-- Checks 5 to 7 of a HOLD and what a successful one writes and answers (R161). -/
def holdOutcome (today : Nat) (patronKey : Key) (pickup : Octet) (patron title : Image) (cls : PatronClass) :
    Except Stop Verdict := do
  let holds := holdList title
  check (holdOf patronKey holds).isNone .duplicate
  check (decide (holdsCount patron < cls.maxHolds)) .limitReached
  check (decide (holds.length < 24)) .queueFull
  let holds' := holds ++ [⟨patronKey.toNat, pickup.toNat, false, today, 0, 0⟩]
  .ok (.commit .holdPlaced [octet holds'.length]
    ⟨some (patronWithHolds patron (holdsCount patron + 1)), some (putHolds title holds'), none⟩)

/-- The HOLD decision (R159). -/
def decideHold (r : RuleStore) (today : Nat) (patronKey : Key) (pickup : Octet) (patron title : Image) : Decision :=
  if 63 < pickup.toNat then ⟨.refuse .badRequest⟩
  else match holdPatronChecks r today patron with
    | .error e => ⟨verdictOf (.error e)⟩
    | .ok cls => ⟨verdictOf (holdOutcome today patronKey pickup patron title cls)⟩

/-- The CANCEL decision (R162). -/
def decideCancel (patronKey : Key) (patron title : Image) : Decision :=
  let holds := holdList title
  if (holdOf patronKey holds).isNone then ⟨.refuse .noSuchHold⟩
  else ⟨.commit .holdCancelled []
    ⟨some (patronWithHolds patron (holdsCount patron - 1)),
     some (putHolds title (holds.filter fun h => decide (h.patron ≠ patronKey.toNat))), none⟩⟩

/-- The hold list with the suspend-until day of a patron's hold set; 0 removes it (R164, R165). -/
def setSuspend (patron : Key) (day : Nat) (holds : List Hold) : List Hold :=
  holds.map fun h => if h.patron = patron.toNat then { h with suspend := day } else h

/-- The SUSPEND decision (R163, R164). -/
def decideSuspend (today : Nat) (patronKey : Key) (requested : Nat) (title : Image) : Decision :=
  if requested ≤ today then ⟨.refuse .badRequest⟩
  else
    let holds := holdList title
    match holdOf patronKey holds with
    | none => ⟨.refuse .noSuchHold⟩
    | some h =>
      if h.ready then ⟨.refuse .notSuspendable⟩
      else
        let day := min requested (today + 180)
        ⟨.commit .holdSuspended (beOctets 2 day ++ [if today + 180 < requested then 1 else 0])
          ⟨none, some (putHolds title (setSuspend patronKey day holds)), none⟩⟩

/-- The RESUME decision (R165, R166). -/
def decideResume (patronKey : Key) (title : Image) : Decision :=
  let holds := holdList title
  match holdOf patronKey holds with
  | none => ⟨.refuse .noSuchHold⟩
  | some h =>
    if h.suspend = 0 then ⟨.succeed .holdResumed []⟩
    else ⟨.commit .holdResumed [] ⟨none, some (putHolds title (setSuspend patronKey 0 holds)), none⟩⟩

/-! ## Taking a decision (R136, R137, R139, R140) -/

/-- AU reads a held record's image: its entry moves to most recent (R69). -/
def touchRead (t : Txn) (s : State) (k : RecordKind) : State :=
  match t.need k with
  | some ⟨_, some n, true⟩ => s.touch k n
  | _ => s

/-- AU reads the held images of a decision (R136); an ACCOUNT's decision reads its copy (R60). -/
def readHeld (t : Txn) (s : State) : State :=
  if t.request.isAccount then s else RecordKind.order.foldl (touchRead t) s

/-- A rule wait begins: the context stays in DECIDE, and the wait is counted (R139). -/
def beginWait (c : CtxId) (t : Txn) (b : BlockId) (s : State) : State :=
  let s' := (s.setTxn c (some { t with ruleWait := some b })).countTxn .ruleWaits
  { s' with au := { s'.au with waits := s'.au.waits.filter (· ≠ c) ++ [c] } }

/-- AU hands a decision's result to its context (R137). -/
def applyDecision (c : CtxId) (t : Txn) (d : Decision) (s : State) : State :=
  let s' := readHeld t s
  match d.verdict with
  | .refuse code => settle (endCtx c code [] s')
  | .succeed code fields => settle (endCtx c code fields s')
  | .commit code fields images => queueUpdate c images code fields s'
  | .wait b => beginWait c t b s'

/-- The image AU reads through a need (R120). -/
def imageOf (c : CtxId) (t : Txn) (k : RecordKind) (s : State) : Image :=
  match readCopy c t k s with
  | some copy => copy.image
  | none => []

/-- The day of decision (R51). -/
def Txn.today (t : Txn) : Nat := (t.day.getD 0).toNat

/-- AU takes the context at the head of its decision list, if its request is one `decide` answers for (R136); a
head of another kind, or an empty list, is no such decision and changes nothing (DESIGN CHOICE, log entry 24). -/
def takeDecision (decide : CtxId → Txn → State → Option Decision) (s : State) : State :=
  match s.au.list with
  | [] => s
  | c :: rest =>
    match s.txn c with
    | none => s
    | some t =>
      match decide c t s with
      | none => s
      | some d => applyDecision c t d { s with au := { s.au with list := rest } }

/-- A RENEW context's decision. -/
def renewDecision (c : CtxId) (t : Txn) (s : State) : Option Decision :=
  match t.request with
  | .renew p _ => some (decideRenew s.rs t.today p (imageOf c t .patron s) (imageOf c t .title s) (imageOf c t .item s))
  | _ => none

/-- A PAY context's decision. -/
def payDecision (c : CtxId) (t : Txn) (s : State) : Option Decision :=
  match t.request with
  | .pay _ amount _ => some (decidePay amount.toNat (imageOf c t .patron s))
  | _ => none

/-- An ACCOUNT context's decision, from its copy of the patron image. -/
def accountDecision (_c : CtxId) (t : Txn) (s : State) : Option Decision :=
  match t.request with
  | .account _ => some (decideAccount s.rs (t.patronCopy.getD []))
  | _ => none

/-- A HOLD context's decision. -/
def holdDecision (c : CtxId) (t : Txn) (s : State) : Option Decision :=
  match t.request with
  | .hold p _ pickup => some (decideHold s.rs t.today p pickup (imageOf c t .patron s) (imageOf c t .title s))
  | _ => none

/-- A CANCEL context's decision. -/
def cancelDecision (c : CtxId) (t : Txn) (s : State) : Option Decision :=
  match t.request with
  | .cancel p _ => some (decideCancel p (imageOf c t .patron s) (imageOf c t .title s))
  | _ => none

/-- A SUSPEND context's decision. -/
def suspendDecision (c : CtxId) (t : Txn) (s : State) : Option Decision :=
  match t.request with
  | .suspend p _ day => some (decideSuspend t.today p day.toNat (imageOf c t .title s))
  | _ => none

/-- A RESUME context's decision. -/
def resumeDecision (c : CtxId) (t : Txn) (s : State) : Option Decision :=
  match t.request with
  | .resume p _ => some (decideResume p (imageOf c t .title s))
  | _ => none

/-- A block has become available: the contexts waiting for it rejoin the tail of the decision list, those that
began to wait earlier first (R140). -/
def blockAvailable (b : BlockId) (s : State) : State :=
  let waitsFor := fun c => decide ((s.txn c).bind Txn.ruleWait = some b)
  let ready := s.au.waits.filter waitsFor
  let s' := ready.foldl (fun s c => s.mapTxn c fun t => { t with ruleWait := none }) s
  { s' with au := ⟨s'.au.list ++ ready, s'.au.waits.filter fun c => !waitsFor c⟩ }

end Sys2Proof.Machine
end

