-- ==== Sys2Proof/Machine/DecisionCommands.lean ====
section
/-! DEFINITION. The meanings of AU's decisions (R136, R137), one for each local kind. -/

namespace Sys2Proof.Machine

/-- RENEW (R141-R147). -/
def execRenew (s : State) : Host.Outcome State Fault Refusal :=
  .next (live (takeDecision renewDecision) s)

/-- PAY (R148, R149). -/
def execPay (s : State) : Host.Outcome State Fault Refusal :=
  .next (live (takeDecision payDecision) s)

/-- ACCOUNT (R150-R152). -/
def execAccount (s : State) : Host.Outcome State Fault Refusal :=
  .next (live (takeDecision accountDecision) s)

/-- HOLD (R159-R161). -/
def execHold (s : State) : Host.Outcome State Fault Refusal :=
  .next (live (takeDecision holdDecision) s)

/-- CANCEL (R162). -/
def execCancel (s : State) : Host.Outcome State Fault Refusal :=
  .next (live (takeDecision cancelDecision) s)

/-- SUSPEND (R163, R164). -/
def execSuspend (s : State) : Host.Outcome State Fault Refusal :=
  .next (live (takeDecision suspendDecision) s)

/-- RESUME (R165, R166). -/
def execResume (s : State) : Host.Outcome State Fault Refusal :=
  .next (live (takeDecision resumeDecision) s)

end Sys2Proof.Machine
end

