-- ==== Sys2Proof/Machine/Dispatching.lean ====
section
/-! DEFINITION. Dispatch (R40-R47): the treatment of a complete kiosk frame, the acceptance checks, the immediate
refusal and the acceptance of a context. -/

namespace Sys2Proof.Machine

/-- The three treatments of a kiosk frame (R41). -/
inductive Treatment where
  | adjudicated
  | relayed
  | refusedOffline
deriving DecidableEq, Repr

/-- The treatment by enrolment, kind and override (R41). -/
def treatment (e : Enrolment) (kind : Octet) (o : Override) : Treatment :=
  match e with
  | .served =>
    if isLocalKind kind then
      match o with
      | .localKinds => .adjudicated
      | .relayAll => .relayed
      | .refuseAll => .refusedOffline
    else .relayed
  | .relayed | .off => .relayed

/-- The transactions in flight of a drop (R43). -/
def inFlight (lane : LaneId) (drop : DropId) (s : State) : List Txn :=
  allContexts.filterMap fun c =>
    match s.txn c with
    | some t => if t.lane = lane ∧ t.drop = drop then some t else none
    | none => none

/-- The FREE context with the lowest number (R47). -/
def freeContext (s : State) : Option CtxId := allContexts.find? fun c => (s.txn c).isNone

/-- What the acceptance checks give: the result code of the first that fails, or the context and request (R43). -/
def acceptance (lane : LaneId) (drop : DropId) (kind tag : Octet) (payload : List Octet) (s : State) :
    Except ResultCode (CtxId × Request) :=
  if s.um.day = 0 then .error .noDate
  else if s.um.service ≠ .normal then .error .busy
  else match Request.parse kind payload with
    | none => .error .badRequest
    | some req =>
      let flying := inFlight lane drop s
      if 2 ≤ flying.length then .error .busy
      else if flying.any fun t => decide (t.kioskTag = tag) then .error .badRequest
      else match freeContext s with
        | none => .error .busy
        | some c => .ok (c, req)

/-- A transaction as acceptance starts it (R47). -/
def newTxn (lane : LaneId) (drop : DropId) (tag : Octet) (req : Request) : Txn :=
  Txn.startNeeds
    { state := .gather, lane := lane, drop := drop, kioskTag := tag, request := req, deadline := .running,
      patron := none, title := none, item := none, titleSettled := false, regathers := 0, day := none,
      abandoned := false, patronCopy := none, ruleWait := none, outstanding := none }

/-- A frame is accepted (R47): the context takes it at its next generation and starts to gather. -/
def accept (c : CtxId) (lane : LaneId) (drop : DropId) (tag : Octet) (req : Request) (s : State) : State :=
  settle ((s.setCtx c ⟨(s.ctx c).gen + 1, some (newTxn lane drop tag req)⟩).countTxn .accepted, [.resume c])

/-- Dispatch takes one complete frame from a drop (R40). -/
def dispatch (lane : LaneId) (drop : DropId) (body : List Octet) (s : State) : State :=
  let kind := body.getD 0 0
  let tag := body.getD 1 0
  match treatment ((s.lane lane).dropRec drop).enrolment kind s.um.override with
  | .relayed => offerRelay lane drop body s
  | .refusedOffline => offerReply lane drop (replyBody kind tag .offline []) s
  | .adjudicated =>
    match acceptance lane drop kind tag (body.drop 2) s with
    | .error code => offerReply lane drop (replyBody kind tag code []) s
    | .ok (c, req) => accept c lane drop tag req s

end Sys2Proof.Machine
end

