-- ==== Sys2Proof/Machine/Lanes.lean ====
section
/-! DEFINITION. The Kiosk Lane Controllers: lane modes and aborts (R2-R5), rounds and turns (R11-R13), frame
assembly (R14-R16), presence (R17), breaks (R18, R19) and SET_DROP (R10). -/

namespace Sys2Proof.Machine

/-! ## Rounds and turns (R11, R12) -/

/-- The drop meets the three conditions of R11. -/
def Lane.qualifies (l : Lane) (d : DropId) : Bool :=
  decide (l.lastVisited < dropNumber d) && (l.dropRec d).enrolled &&
    (decide ((l.dropRec d).presence = .present) || decide (l.round = 0))

/-- The lowest-numbered drop that qualifies for a turn (R11). -/
def Lane.nextDrop (l : Lane) : Option DropId := allDrops.find? l.qualifies

/-- Some drop of the lane is enrolled. -/
def Lane.anyEnrolled (l : Lane) : Bool := allDrops.any fun d => (l.dropRec d).enrolled

/-- The round ends: the counter advances, and a new round begins or, with no drop enrolled, the lane goes idle
(R11). -/
def Lane.endRound (l : Lane) : Lane :=
  { l with round := l.round + 1, lastVisited := 0, idle := !l.anyEnrolled }

/-- A turn for a drop begins: the oldest reply for it is removed and delivered, else it is polled (R12, R21). -/
def Lane.startTurn (l : Lane) (d : DropId) : Lane :=
  let reply := l.replies.find? fun r => decide (r.drop = d)
  { l with
    replies := l.replies.eraseP fun r => decide (r.drop = d)
    turn := some ⟨d, .transmitting (turnChars d reply)⟩
    lastVisited := dropNumber d
    idle := false
    held := .none }

/-- The next turn begins, after as many empty rounds as it takes; from any counter value at most 9 rounds reach one
with counter 0, which visits every enrolled drop (R11). -/
def Lane.nextTurn : (rounds : Nat) → Lane → Lane
  | 0, l => l
  | n + 1, l =>
    match l.nextDrop with
    | some d => l.startTurn d
    | none => if l.anyEnrolled then nextTurn n l.endRound else l.endRound

/-- The rounds a lane may pass through to find its next turn: 8 counter values and the round under way. -/
def roundBound : Nat := 9

/-- The turn in progress ends (R12, R13). -/
def Lane.endTurn (l : Lane) : Lane := { l with turn := none }

/-! ## Modes (R2-R5) -/

/-- The lane enters STARTING: round counter 0, break begun (R3). -/
def Lane.enterStarting (l : Lane) : Lane :=
  { l with mode := .starting .breaking, round := 0, turn := none, lastVisited := 0, idle := false, held := .none }

/-- The lane enters ISOLATED (R2). -/
def Lane.enterIsolated (l : Lane) : Lane :=
  { l with mode := .isolated, turn := none, lastVisited := 0, idle := false, held := .none }

/-- A lane abort as the lane sees it: turn cut, assembly buffer and reply queue emptied (R5 steps 1 to 3). -/
def Lane.abort (l : Lane) : Lane := { l with turn := none, held := .none, assembly := [], replies := [] }

/-- A lane abort, the lane then taking the mode its cause requires (R5). -/
def laneAbort (i : LaneId) (mode : Lane → Lane) (s : State) : State :=
  (abortLane i (s.mapLane i Lane.abort)).mapLane i mode

/-- SET_LANE is taken by the lane: the mode asked for is SERVE or ISOLATED (R4). -/
def takeSetLane (i : LaneId) (serve : Bool) (rate : Fin 5) (s : State) : State :=
  let withRate := fun l : Lane => { l with rate := rate }
  match (s.lane i).mode, serve with
  | .isolated, false => s.mapLane i withRate
  | .isolated, true => s.mapLane i fun l => (withRate l).enterStarting
  | _, false => laneAbort i (fun l => (withRate l).enterIsolated) s
  | _, true => if (s.lane i).rate = rate then s else laneAbort i (fun l => (withRate l).enterStarting) s

/-- SET_DROP is taken by the lane (R10): a change to OFF removes the drop's replies and aborts its transactions; a
drop enrolled on an idle lane begins a new round (R11, DESIGN CHOICE, log entry 12). -/
def takeSetDrop (i : LaneId) (d : DropId) (e : Enrolment) (s : State) : State :=
  let l := s.lane i
  let r := l.dropRec d
  let l' := l.setDropRec d { r with enrolment := e }
  if e = r.enrolment then s
  else if e = .off then
    abortDrop i d (s.setLane i { l' with replies := l'.replies.filter fun x => decide (x.drop ≠ d) })
  else if l'.idle then s.setLane i (Lane.nextTurn roundBound { l' with idle := false })
  else s.setLane i l'

/-- The break of STARTING ends: the gap begins (R3). -/
def Lane.breakEnd (l : Lane) : Lane :=
  if l.mode = .starting .breaking then { l with mode := .starting .gap } else l

/-- The gap of STARTING ends: the lane enters SERVE and begins the first turn of round 0 (R3, R12). -/
def Lane.gapEnd (l : Lane) : Lane :=
  if l.mode = .starting .gap then Lane.nextTurn roundBound { l with mode := .serve } else l

/-- The turnaround has run out: the next turn begins (R11, R12). -/
def Lane.turnStart (l : Lane) : Lane :=
  if l.mode = .serve ∧ l.turn = none ∧ l.idle = false then Lane.nextTurn roundBound l else l

/-- The part's last character of the turn has been sent: the answer window opens (R12, R13). -/
def Lane.transmitEnd (l : Lane) : Lane :=
  match l.mode, l.turn with
  | .serve, some ⟨d, .transmitting _⟩ => { l with turn := some ⟨d, .window⟩ }
  | _, _ => l

/-! ## Received characters (R13-R18) -/

/-- Any character received in the answer window makes the drop PRESENT with miss count 0 (R17). -/
def Lane.answered (l : Lane) (d : DropId) : Lane :=
  l.setDropRec d { l.dropRec d with presence := .present, misses := 0 }

/-- A miss: the miss count rises to at most 3, and at 3 the drop is ABSENT (R17). -/
def DropRecord.miss (r : DropRecord) : DropRecord :=
  let n : Fin 4 := if r.misses = 3 then 3 else r.misses + 1
  { r with misses := n, presence := if n = 3 then .absent else r.presence }

/-- A discard, on the first character or during assembly: the buffer is emptied and the quiet wait begins (R13,
R15). -/
def Lane.discard (l : Lane) (d : DropId) (why : LaneCounter) : Lane :=
  { l.count why with assembly := [], turn := some ⟨d, .quietWait⟩ }

/-- A bad character, in the phase it arrived in (R13, R15). -/
def Lane.badCharacter (l : Lane) : Lane :=
  match l.turn with
  | some ⟨d, .window⟩ => (l.answered d).discard d .badCharacters
  | some ⟨d, .assembly⟩ => l.discard d .badCharacters
  | _ => l

/-- The first character of the answer window, when good (R13). -/
def Lane.firstCharacter (l : Lane) (d : DropId) (c : LaneChar) : Lane :=
  let l' := l.answered d
  if c = addressChar d then { l' with assembly := [c], turn := some ⟨d, .assembly⟩ }
  else if c = nilChar d then (l'.count .nils).endTurn
  else l'.discard d .addressErrors

/-- The body length a frame under assembly has announced. -/
def Lane.bodyLength (l : Lane) : Nat := ((l.assembly.getD 1 ⟨false, 0⟩).data).toNat

/-- A complete frame ends the turn; from an enrolled drop it is counted and handed to dispatch (R14). -/
def completeFrame (i : LaneId) (d : DropId) (buffer : List LaneChar) (s : State) : State :=
  let l := { (s.lane i).endTurn with assembly := [] }
  if (l.dropRec d).enrolled then
    dispatch i d ((buffer.drop 2).map LaneChar.data) (s.setLane i (l.count .framesTaken))
  else s.setLane i l

/-- A good character during frame assembly (R14, R15). -/
def assembleCharacter (i : LaneId) (d : DropId) (c : LaneChar) (s : State) : State :=
  let l := s.lane i
  if c.mark then s.setLane i (l.discard d .addressErrors)
  else if l.assembly.length < 2 then
    if bodyLengthOk c.data.toNat then s.setLane i { l with assembly := l.assembly ++ [c] }
    else s.setLane i (l.discard d .truncated)
  else
    let buffer := l.assembly ++ [c]
    if buffer.length = 2 + l.bodyLength then completeFrame i d buffer s
    else s.setLane i { l with assembly := buffer }

/-- The verdict on a held character: it stands as a bad character in the phase it arrived in (R18). -/
def Lane.heldStands (l : Lane) : Lane :=
  match l.held with
  | .none => l
  | .counted => { l with held := .none }.badCharacter
  | .ignored => { l with held := .none }

/-- The received character's phase takes characters (R9). -/
def Lane.takesCharacters (l : Lane) : Bool :=
  match l.turn with
  | some ⟨_, .window⟩ | some ⟨_, .assembly⟩ => true
  | _ => false

/-- A character received on a lane (R8, R13-R15, R18). A lane that is not receiving ignores LRX (R9); a new start
bit means that a held character's low has ended, so that one stands first (R18, DEDUCED, log entry 11). -/
def takeCharacter (i : LaneId) (x : Samples) (s : State) : State :=
  if (s.lane i).receiving then
    match receive x with
    | .falseStart => s
    | r =>
      let s' := s.mapLane i Lane.heldStands
      let l := s'.lane i
      match r with
      | .falseStart => s'
      | .held => s'.setLane i { l with held := if l.takesCharacters then .counted else .ignored }
      | .bad => s'.setLane i l.badCharacter
      | .good c =>
        match l.turn with
        | some ⟨d, .window⟩ => s'.setLane i (l.firstCharacter d c)
        | some ⟨d, .assembly⟩ => assembleCharacter i d c s'
        | _ => s'
  else s

/-- The gap between characters of a frame runs out: the frame is truncated and the turn ends (R16). -/
def Lane.frameGapOut (l : Lane) : Lane :=
  match l.turn, l.held with
  | some ⟨_, .assembly⟩, .none => { (l.count .truncated).endTurn with assembly := [] }
  | _, _ => l

/-- The quiet wait ends, and with it the turn (R15). -/
def Lane.quietEnd (l : Lane) : Lane :=
  match l.turn with
  | some ⟨_, .quietWait⟩ => l.endTurn
  | _ => l

/-- The answer window runs out: a miss, and the turn ends (R13, R17). -/
def Lane.windowOut (l : Lane) : Lane :=
  match l.turn, l.held with
  | some ⟨d, .window⟩, .none => ((l.setDropRec d (l.dropRec d).miss).count .misses).endTurn
  | _, _ => l

/-- A break is received: the breaks received counter advances, the lane aborts and enters STARTING (R19). -/
def takeBreak (i : LaneId) (s : State) : State :=
  if (s.lane i).receiving then laneAbort i Lane.enterStarting (s.mapLane i (·.count .breaks)) else s

end Sys2Proof.Machine
end

