-- ==== Sys2Proof/Machine/LaneCommands.lean ====
section
/-! DEFINITION. The meanings of the events on the kiosk lanes (R3, R8-R19). -/

namespace Sys2Proof.Machine

/-- BREAK_END (R3). -/
def execBreakEnd (i : LaneId) (s : State) : Host.Outcome State Fault Refusal :=
  .next (live (·.mapLane i Lane.breakEnd) s)

/-- GAP_END (R3, R11, R12). -/
def execGapEnd (i : LaneId) (s : State) : Host.Outcome State Fault Refusal :=
  .next (live (·.mapLane i Lane.gapEnd) s)

/-- TURN_START (R11, R12). -/
def execTurnStart (i : LaneId) (s : State) : Host.Outcome State Fault Refusal :=
  .next (live (·.mapLane i Lane.turnStart) s)

/-- LANE_TRANSMIT_END (R12, R13). -/
def execLaneTransmitEnd (i : LaneId) (s : State) : Host.Outcome State Fault Refusal :=
  .next (live (·.mapLane i Lane.transmitEnd) s)

/-- LANE_CHARACTER (R8, R9, R13-R15, R17, R18, R40). -/
def execLaneCharacter (i : LaneId) (x : Samples) (s : State) : Host.Outcome State Fault Refusal :=
  .next (live (takeCharacter i x) s)

/-- FRAME_GAP_TIMEOUT (R16). -/
def execFrameGapTimeout (i : LaneId) (s : State) : Host.Outcome State Fault Refusal :=
  .next (live (·.mapLane i Lane.frameGapOut) s)

/-- QUIET_WAIT_END (R15). -/
def execQuietWaitEnd (i : LaneId) (s : State) : Host.Outcome State Fault Refusal :=
  .next (live (·.mapLane i Lane.quietEnd) s)

/-- ANSWER_WINDOW_TIMEOUT (R13, R17). -/
def execAnswerWindowTimeout (i : LaneId) (s : State) : Host.Outcome State Fault Refusal :=
  .next (live (·.mapLane i Lane.windowOut) s)

/-- HELD_CHARACTER_STANDS (R18). -/
def execHeldCharacterStands (i : LaneId) (s : State) : Host.Outcome State Fault Refusal :=
  .next (live (·.mapLane i Lane.heldStands) s)

/-- BREAK_RECEIVED (R18, R19, R5). -/
def execBreakReceived (i : LaneId) (s : State) : Host.Outcome State Fault Refusal :=
  .next (live (takeBreak i) s)

end Sys2Proof.Machine
end

