-- ==== Sys2Proof/Machine/Fills.lean ====
section
/-! DEFINITION. The Fill Unit's handling of SEGMENT, ABSENT, DEFER, the delay end and the fetch timer (R84-R103),
and both blocks' handling of INVALIDATE (R77-R79, R97). These are the effects of a good frame once BLI has
steered it; Machine/LinkCommands.lean adds BLI's part. -/

namespace Sys2Proof.Machine

/-- The slot a tag is live for, with its fill (R84). -/
def liveSlot (tag : Tag) (s : State) : Option (SlotId × Fill) :=
  if h : tagSlot tag < 4 then
    let i : SlotId := ⟨tagSlot tag, h⟩
    match (s.slot i).fill with
    | some f => if (s.slot i).gen = tagGen tag then some (i, f) else none
    | none => none
  else none

/-- The slot with its fill changed. -/
def setFill (i : SlotId) (f : Fill) (s : State) : State := s.setSlot i { s.slot i with fill := some f }

/-- Every index of the kind is held (R89). -/
def Fill.full (f : Fill) : Bool := f.received.all Option.isSome
/-- The segments still missing (R91). -/
def Fill.missing (f : Fill) : Nat := f.received.countP Option.isNone
/-- The lowest missing index (R91). -/
def Fill.firstMissing (f : Fill) : Nat := f.received.findIdx Option.isNone
/-- The record image in index order (R93). -/
def Fill.image (f : Fill) : Image := f.received.flatMap (·.getD [])

/-- The fill starts again from segment 0 at a new generation (R90, R100). -/
def restartFill (i : SlotId) (f : Fill) (s : State) : State :=
  let x := s.slot i
  fetchDue i 0 f.kind.segments <| s.setSlot i
    { x with
      gen := x.gen + 1
      fill := some { f with phase := .requested, received := List.replicate f.kind.segments none,
                            version := none, owed := none } }

/-- The waiters of a FILLING entry. -/
def fillWaiters (k : RecordKind) (n : Nat) (s : State) : List CtxId :=
  match s.entry k n with
  | .filling _ ws => ws
  | _ => []

/-- The fill of a slot completes (R93-R96): the entry becomes VALID, TRANSIENT or EMPTY by KEEP, taint and waiters, its
waiters are told, and the slot is finished with. The waiters go on when the slot is IDLE, as in 6.7 (DEDUCED, log
entry 40); the room an entry without a waiter gives is offered before that (DESIGN CHOICE, log entry 40). The later waiters of a tainted entry look up before
its owner regathers (5.9, DEDUCED, log entry 14); a VALID entry left to no lock is room for the allocation queue (DEDUCED,
log entry 30). -/
def completeFill (i : SlotId) (f : Fill) (version : Version) (keep : Bool) (s : State) : State × List Task :=
  let tainted := decide (version.toNat < f.highest.toNat)
  let ws := fillWaiters f.kind f.entry s
  let copy : Copy := ⟨f.key, version, f.image, none⟩
  let valid := (s.setEntry f.kind f.entry (.valid copy none [])).touch f.kind f.entry
  let owned := fun w => (s.setEntry f.kind f.entry (.transient copy tainted w)).touch f.kind f.entry
  match keep && !tainted, ws with
  | true, [] => (finishSlot i (offerRoom f.kind valid), [])
  | true, _ :: _ =>
    (finishSlot i (ws.foldl (fun s w => s.mapTxn w (·.found f.kind f.entry false)) valid),
      ws.map .resume ++ [.retry f.kind])
  | false, [] => (finishSlot i (offerRoom f.kind (s.setEntry f.kind f.entry .empty)), [])
  | false, w :: rest =>
    (finishSlot i ((owned w).mapTxn w (·.found f.kind f.entry true)),
      if tainted then rest.map .resume ++ [.regather w] else .resume w :: rest.map .resume)

/-- The fill of a slot fails (R103): every waiter ends with the code in list order, then the entry becomes EMPTY and
the pool's allocation queue looks up again, then the slot becomes IDLE; the contexts that the ended waiters' locks and
rooms go to follow (DESIGN CHOICE, log entry 15). -/
def failFill (i : SlotId) (f : Fill) (code : ResultCode) (s : State) : State × List Task :=
  let r := endEach code (fillWaiters f.kind f.entry s) s
  (finishSlot i (offerRoom f.kind (r.1.setEntry f.kind f.entry .empty)), r.2)

/-- A burst ends with segments missing: a continuation FETCH becomes due (R91). -/
def endBurst (i : SlotId) (f : Fill) (s : State) : State := fetchDue i f.firstMissing f.missing s

/-- The END flag of a SEGMENT (R195). -/
def endFlag (flags : Octet) : Bool := flags.getLsbD 1
/-- The KEEP flag of a SEGMENT (R195). -/
def keepFlag (flags : Octet) : Bool := flags.getLsbD 0

/-- FU takes a SEGMENT by the tests of R88. -/
def takeSegment (tag : Tag) (kind : Octet) (key : Key) (version : Version) (index flags : Octet)
    (data : List Octet) (s : State) : State :=
  match liveSlot tag s with
  | none => s.countLink .lateTags
  | some (i, f) =>
    if f.phase ≠ .requested ∨ f.kind.code ≠ kind ∨ f.key ≠ key ∨ f.kind.segments ≤ index.toNat then
      s.countLink .lateTags
    else if f.version.any (· ≠ version) then restartFill i f s
    else if (f.received.getD index.toNat none).isSome then
      let s' := s.countLink .lateTags
      if endFlag flags then endBurst i f s' else s'
    else
      let f' := { f with received := f.received.set index.toNat (some data), version := some version }
      let s' := setFill i f' s
      if f'.full then settle (completeFill i f' version (keepFlag flags) s')
      else if endFlag flags then endBurst i f' s'
      else s'

/-- FU takes an ABSENT (R102). -/
def takeAbsent (tag : Tag) (s : State) : State :=
  match liveSlot tag s with
  | some (i, f) =>
    if f.phase = .requested then settle (failFill i f f.kind.unknownCode s) else s.countLink .lateTags
  | none => s.countLink .lateTags

/-- The delay of a DEFER in ms: code 0 is taken as 1, a code above 15 as 15 (R99, R196). -/
def deferDelay (code : Octet) : Nat := 10 * min 15 (max 1 code.toNat)

/-- FU takes a DEFER (R99, R101). -/
def takeDefer (tag : Tag) (code : Octet) (s : State) : State :=
  match liveSlot tag s with
  | some (i, f) =>
    if f.phase ≠ .requested then s.countLink .lateTags
    else if 4 ≤ f.defers then settle (failFill i f .uplinkBusy s)
    else setFill i
      { f with phase := .deferred (deferDelay code), received := List.replicate f.kind.segments none,
               version := none, defers := f.defers + 1, owed := none } s
  | none => s.countLink .lateTags

/-- The delay of a slot runs out (R100). -/
def endDelay (i : SlotId) (s : State) : State :=
  match (s.slot i).fill with
  | some f =>
    match f.phase with
    | .deferred _ => restartFill i f s
    | .requested => s
  | none => s

/-- The fetch timer of a slot runs out (R87). -/
def fetchTimerOut (i : SlotId) (s : State) : State :=
  match (s.slot i).fill with
  | some f => if f.phase = .requested then settle (failFill i f .uplinkTimeout s) else s
  | none => s

/-! ## INVALIDATE (R77-R79, R97) -/

/-- The higher of two versions (R97). -/
def raiseTo (old v : Version) : Version := if old.toNat < v.toNat then v else old

/-- FU notes the version in the slot or the place on the fill waiting list that holds the key (R97). -/
def noteInFills (k : RecordKind) (key : Key) (v : Version) (s : State) : State :=
  { s with
    fu :=
      { slots := s.fu.slots.map fun x =>
          { x with fill := x.fill.map fun f =>
              if f.kind = k ∧ f.key = key then { f with highest := raiseTo f.highest v } else f }
        waiting := s.fu.waiting.map fun w =>
          if w.kind = k ∧ w.key = key then { w with highest := raiseTo w.highest v } else w } }

/-- The holder of an entry is told of its stale mark: in GATHER or DECIDE it regathers; in COMMIT it stays (R78);
an ACCOUNT context has its copy (R60). -/
def tellHolder (o : CtxId) (s : State) : List Task :=
  match s.txn o with
  | some t => if t.state = .commit ∨ t.request.isAccount then [] else [.regather o]
  | none => []

/-- RC treats one entry by a change notice (R77, R78). -/
def noteInEntry (k : RecordKind) (key : Key) (v : Version) (n : Nat) (s : State) : State × List Task :=
  match s.entry k n with
  | .valid copy owner ws =>
    if copy.key = key ∧ copy.version.toNat < v.toNat then
      match owner with
      | none => (s.setEntry k n .empty, [.retry k])
      | some o => (s.setEntry k n (.valid (copy.notice v) (some o) ws), tellHolder o s)
    else (s, [])
  | .transient copy tainted o =>
    if copy.key = key ∧ copy.version.toNat < v.toNat then
      (s.setEntry k n (.transient (copy.notice v) tainted o), tellHolder o s)
    else (s, [])
  | .empty | .filling .. => (s, [])

/-- RC treats every entry of the pool, in entry order (R77). -/
def noteInEntries (k : RecordKind) (key : Key) (v : Version) : List Nat → State → State × List Task
  | [], s => (s, [])
  | n :: ns, s =>
    let r := noteInEntry k key v n s
    let q := noteInEntries k key v ns r.1
    (q.1, r.2 ++ q.2)

/-- A change notice is taken by FU and RC as the entries stand; what it sets off follows (R77, R97, DEDUCED, log entry 17). -/
def takeInvalidate (kind : Octet) (key : Key) (v : Version) (s : State) : State :=
  match RecordKind.ofCode kind with
  | none => s
  | some k =>
    if key = 0 then s
    else settle (noteInEntries k key v (List.range (s.pool k).entries.length) (noteInFills k key v s))

end Sys2Proof.Machine
end

