-- ==== Sys2Proof/Machine/Store.lean ====
section
/-! DEFINITION. The rule store's table commands and the completions of its operations (R169-R183), as UM hands them
on; every reply goes to UM's reply list (R185). -/

namespace Sys2Proof.Machine

/-! ## Entry layouts and clamping (R170, R175, R200) -/

/-- Command codes of the table commands (R201). -/
def tableClearCode : Octet := 0x0B
/-- TABLE_WRITE (R201). -/
def tableWriteCode : Octet := 0x0C
/-- TABLE_CLOSE (R201). -/
def tableCloseCode : Octet := 0x0D
/-- TABLE_ABORT (R201). -/
def tableAbortCode : Octet := 0x0E
/-- TABLE_READ (R201). -/
def tableReadCode : Octet := 0x0F
/-- TABLE_STATUS_CLEAR (R201). -/
def tableStatusClearCode : Octet := 0x10

/-- The block an octet names, if it is 0-12 (R172). -/
def blockOf (o : Octet) : Option BlockId := if h : o.toNat < 13 then some ⟨o.toNat, h⟩ else none

/-- The number of entries of a block (R169). -/
def entryCount (b : BlockId) : Nat := if b = pcBlock then 17 else 64

/-- The octets of an entry's values (R200, R202). -/
def entrySize (b : BlockId) (entry : Nat) : Nat := if b = pcBlock then (if entry = 16 then 2 else 6) else 8

/-- A value held within a range (R175). -/
def clampTo (lo hi n : Nat) : Nat := min hi (max lo n)

/-- The 8 octets of a calendar entry as 64 day marks: position `j` is bit `j mod 8` of octet `j / 8` (R200). -/
def marksOf (values : List Octet) : BitVec 64 := BitVec.ofNat 64 (beNat (octetsAt values 0 8).reverse)

/-- The octets of 64 day marks (R200). -/
def marksOctets (marks : BitVec 64) : List Octet := (beOctets 8 marks.toNat).reverse

/-- The entry that values write, each field clamped into its range (R170, R175, R200). -/
def entryOf (b : BlockId) (entry : Nat) (values : List Octet) : RuleEntry :=
  if b.val < 4 then .loanRule
    { renewable := clampTo 0 1 (natAt values 0 1), loanDays := clampTo 1 120 (natAt values 1 1),
      maxRenewals := clampTo 0 15 (natAt values 2 1), rate := clampTo 0 2500 (natAt values 3 2),
      cap := natAt values 5 2, grace := clampTo 0 14 (natAt values 7 1) }
  else if b.val < 12 then .calendar (marksOf values)
  else if entry = 16 then .windowBase (clampTo 1 65535 (natAt values 0 2))
  else .patronClass
    { threshold := clampTo 1 999999 (natAt values 0 4), discount := clampTo 0 100 (natAt values 4 1),
      maxHolds := clampTo 0 50 (natAt values 5 1) }

/-- The octets of a written entry (R200). -/
def RuleEntry.octets : RuleEntry → List Octet
  | .loanRule r =>
    [octet r.renewable, octet r.loanDays, octet r.maxRenewals] ++ beOctets 2 r.rate ++ beOctets 2 r.cap ++
      [octet r.grace]
  | .patronClass p => beOctets 4 p.threshold ++ [octet p.discount, octet p.maxHolds]
  | .windowBase w => beOctets 2 w
  | .calendar marks => marksOctets marks

/-- Some field was clamped: what is written reads back as other values than were given (R174, R175). -/
def wasClamped (b : BlockId) (entry : Nat) (values : List Octet) : Bool :=
  decide ((entryOf b entry values).octets ≠ values)

/-- Content state codes (R202). -/
def Content.code : Content → Octet
  | .blank => 0
  | .partly => 1
  | .valid => 2
  | .incomplete => 3

/-! ## Starting and refusing operations -/

/-- The rule store changed. -/
def State.mapRs (s : State) (f : RuleStore → RuleStore) : State := { s with rs := f s.rs }

/-- A block's content state changed. -/
def RuleStore.setContent (r : RuleStore) (b : BlockId) (x : Content) : RuleStore :=
  r.setBlock b { r.block b with content := x }

/-- An operation starts: the store is BUSY and the block INCOMPLETE at once (R171, R172). -/
def startOperation (kind : OpKind) (b : BlockId) (seq command : Octet) (s : State) : State :=
  s.mapRs fun r => { r.setContent b .incomplete with operation := some ⟨kind, b, seq, command⟩ }

/-- Either error flag is set (R180). -/
def RuleStore.flagged (r : RuleStore) : Bool := r.writeError || r.sequenceError

/-- SEQUENCE_ERROR is set and the command is answered with it (R174, R176, R180). -/
def sequenceError (seq command : Octet) (s : State) : State :=
  answer seq command .sequenceError [] (s.mapRs fun r => { r with sequenceError := true })

/-- TABLE_CLEAR (R172, R173). -/
def takeTableClear (seq block : Octet) (s : State) : State :=
  match blockOf block with
  | none => answer seq tableClearCode .badValue [] s
  | some b =>
    if s.rs.operation.isSome then answer seq tableClearCode .busy [] s
    else startOperation .clear b seq tableClearCode s

/-- TABLE_WRITE (R172, R174, R202). -/
def takeTableWrite (seq block entry : Octet) (values : List Octet) (s : State) : State :=
  match blockOf block with
  | none => answer seq tableWriteCode .badValue [] s
  | some b =>
    let e := entry.toNat
    let x := s.rs.block b
    if values.length ≠ entrySize b e then answer seq tableWriteCode .badValue [] s
    else if s.rs.operation.isSome then answer seq tableWriteCode .busy [] s
    else if s.rs.flagged then answer seq tableWriteCode .errorPending [] s
    else if x.content = .valid ∨ x.content = .incomplete then sequenceError seq tableWriteCode s
    else if entryCount b ≤ e then sequenceError seq tableWriteCode s
    else if (x.entries.getD e none).isSome then
      answer seq tableWriteCode .writeError [] (s.mapRs fun r => { r with writeError := true })
    else startOperation (.write e values) b seq tableWriteCode s

/-- TABLE_CLOSE (R172, R176). -/
def takeTableClose (seq block : Octet) (s : State) : State :=
  match blockOf block with
  | none => answer seq tableCloseCode .badValue [] s
  | some b =>
    let x := s.rs.block b
    if s.rs.operation.isSome then answer seq tableCloseCode .busy [] s
    else if s.rs.flagged then answer seq tableCloseCode .errorPending [] s
    else if x.content = .valid ∨ x.content = .incomplete then sequenceError seq tableCloseCode s
    else startOperation .close b seq tableCloseCode s

/-- TABLE_ABORT (R177): the running operation ends, its block stays INCOMPLETE, and both commands are answered. -/
def takeTableAbort (seq : Octet) (s : State) : State :=
  match s.rs.operation with
  | none => answer seq tableAbortCode .nothingToAbort [] s
  | some o =>
    answer seq tableAbortCode .done []
      (answer o.seq o.command .aborted [] (s.mapRs fun r => { r with operation := none }))

/-- The fields of a TABLE_READ reply (R179, R202). -/
def tableReadFields (r : RuleStore) (b : BlockId) (e : Nat) : List Octet :=
  let x := r.block b
  let under : Octet := if r.operation.any (fun o => decide (o.block = b)) then 1 else 0
  let blank := List.replicate (entrySize b e) (0 : Octet)
  match x.content, x.entries.getD e none with
  | .incomplete, _ => x.content.code :: under :: 2 :: blank
  | _, some v => x.content.code :: under :: 1 :: v.octets
  | _, none => x.content.code :: under :: 0 :: blank

/-- TABLE_READ (R172, R179). -/
def takeTableRead (seq block entry : Octet) (s : State) : State :=
  match blockOf block with
  | none => answer seq tableReadCode .badValue [] s
  | some b =>
    if entryCount b ≤ entry.toNat then answer seq tableReadCode .badValue [] s
    else answer seq tableReadCode .done (tableReadFields s.rs b entry.toNat) s

/-- TABLE_STATUS_CLEAR (R172, R180). -/
def takeTableStatusClear (seq : Octet) (s : State) : State :=
  if s.rs.operation.isSome then answer seq tableStatusClearCode .busy [] s
  else answer seq tableStatusClearCode .done []
    (s.mapRs fun r => { r with writeError := false, sequenceError := false })

/-! ## Completions (R173, R174, R176) -/

/-- The store becomes READY with a block in the state its operation gives. -/
def RuleStore.finish (r : RuleStore) (b : BlockId) (x : Block) : RuleStore :=
  { r.setBlock b x with operation := none }

/-- A CLEAR completes: every entry blank, the block BLANK, the command answered DONE (R173). -/
def clearCompletes (s : State) : State :=
  match s.rs.operation with
  | some ⟨.clear, b, seq, command⟩ =>
    answer seq command .done []
      (s.mapRs fun r => r.finish b ⟨.blank, List.replicate (entryCount b) none⟩)
  | _ => s

/-- A WRITE completes: the entry written clamped, the block PARTIAL, the command answered CLAMPED or DONE (R174). -/
def writeCompletes (s : State) : State :=
  match s.rs.operation with
  | some ⟨.write e values, b, seq, command⟩ =>
    answer seq command (if wasClamped b e values then .clamped else .done) []
      (s.mapRs fun r => r.finish b ⟨.partly, (r.block b).entries.set e (some (entryOf b e values))⟩)
  | _ => s

/-- A CLOSE completes: the block VALID, the command answered DONE, and AU told (R140, R176, R181). -/
def closeCompletes (s : State) : State :=
  match s.rs.operation with
  | some ⟨.close, b, seq, command⟩ =>
    blockAvailable b
      (answer seq command .done [] (s.mapRs fun r => r.finish b ⟨.valid, (r.block b).entries⟩))
  | _ => s

end Sys2Proof.Machine
end

