-- ==== Sys2Proof/Machine/Management.lean ====
section
/-! DEFINITION. Unit Management's own commands (R184-R193): SET_LANE, SET_DROP, SET_DAY, SET_OVERRIDE, QUIESCE,
RESUME_SERVICE, FLUSH_CACHE, READ_STATUS, READ_COUNTERS, RESET_UNIT; and what a reset and a loss of power do. -/

namespace Sys2Proof.Machine

/-- Unit Management changed. -/
def State.mapUm (s : State) (f : Um → Um) : State := { s with um := f s.um }

/-- The lane an octet names, if it is 0-3 (R186). -/
def laneOf (o : Octet) : Option LaneId := if h : o.toNat < 4 then some ⟨o.toNat, h⟩ else none

/-- The drop an octet names, if it is 1-8 (R186). -/
def dropOf (o : Octet) : Option DropId := if h : 1 ≤ o.toNat ∧ o.toNat ≤ 8 then some ⟨o.toNat - 1, by omega⟩ else none

/-- The enrolment an octet names (R201). -/
def enrolmentOf (o : Octet) : Option Enrolment :=
  if o = 0 then some .off else if o = 1 then some .served else if o = 2 then some .relayed else none

/-- The rate code an octet names, if it is 0-4 (R6). -/
def rateOf (o : Octet) : Option (Fin 5) := if h : o.toNat < 5 then some ⟨o.toNat, h⟩ else none

/-- The override an octet names (R201). -/
def overrideOf (o : Octet) : Option Override :=
  if o = 0 then some .localKinds else if o = 1 then some .relayAll else if o = 2 then some .refuseAll else none

/-- Command codes of UM's own commands (R201). -/
def setLaneCode : Octet := 0x01
/-- SET_DROP (R201). -/
def setDropCode : Octet := 0x02
/-- SET_DAY (R201). -/
def setDayCode : Octet := 0x03
/-- SET_OVERRIDE (R201). -/
def setOverrideCode : Octet := 0x04
/-- RESUME_SERVICE (R201). -/
def resumeServiceCode : Octet := 0x06
/-- FLUSH_CACHE (R201). -/
def flushCacheCode : Octet := 0x07
/-- READ_STATUS (R201). -/
def readStatusCode : Octet := 0x08
/-- READ_COUNTERS (R201). -/
def readCountersCode : Octet := 0x09

/-- SET_LANE as UM takes it (R186). A lane abort that it causes is carried to its end, with the reply to a pending QUIESCE
whose idleness it brings, before the command's own reply is produced (DESIGN CHOICE, log entry 43). -/
def manageSetLane (seq lane mode rate : Octet) (s : State) : State :=
  match laneOf lane, rateOf rate with
  | some i, some r =>
    if mode = 0 then answer seq setLaneCode .done [] (takeSetLane i false r s)
    else if mode = 1 then answer seq setLaneCode .done [] (takeSetLane i true r s)
    else answer seq setLaneCode .badValue [] s
  | _, _ => answer seq setLaneCode .badValue [] s

/-- SET_DROP as UM takes it: a drop abort that it causes comes before the command's reply (R186), and so does all that the
locks it frees set off in other contexts (DESIGN CHOICE, log entry 43). -/
def manageSetDrop (seq lane drop enrolment : Octet) (s : State) : State :=
  match laneOf lane, dropOf drop, enrolmentOf enrolment with
  | some i, some d, some e => answer seq setDropCode .done [] (takeSetDrop i d e s)
  | _, _, _ => answer seq setDropCode .badValue [] s

/-- SET_DAY (R187): never backward. -/
def manageSetDay (seq : Octet) (day : Day) (s : State) : State :=
  if day = 0 then answer seq setDayCode .badValue [] s
  else if day.toNat < s.um.day.toNat then answer seq setDayCode .dayBackward [] s
  else answer seq setDayCode .done [] (s.mapUm fun u => { u with day := day })

/-- SET_OVERRIDE (R188). -/
def manageSetOverride (seq value : Octet) (s : State) : State :=
  match overrideOf value with
  | some o => answer seq setOverrideCode .done [] (s.mapUm fun u => { u with override := o })
  | none => answer seq setOverrideCode .badValue [] s

/-- QUIESCE (R189). -/
def manageQuiesce (seq : Octet) (s : State) : State :=
  match s.um.service with
  | .normal =>
    if unitIdle s then answer seq quiesceCode .done [] (s.mapUm fun u => { u with service := .quiesced })
    else s.mapUm fun u => { u with service := .quiescing, pendingQuiesce := some seq }
  | .quiescing => answer seq quiesceCode .busy [] s
  | .quiesced => answer seq quiesceCode .done [] s

/-- RESUME_SERVICE (R189): a pending QUIESCE is answered CANCELLED first. -/
def manageResumeService (seq : Octet) (s : State) : State :=
  let s' := s.mapUm fun u => { u with service := .normal, pendingQuiesce := none }
  match s.um.service, s.um.pendingQuiesce with
  | .quiescing, some q => answer seq resumeServiceCode .done [] (answer q quiesceCode .cancelled [] s')
  | _, _ => answer seq resumeServiceCode .done [] s'

/-- Every entry of a pool EMPTY, its order of use kept, its allocation queue empty (R81). -/
def Pool.flush (p : Pool) : Pool := { p with entries := p.entries.map fun _ => .empty, queue := [] }

/-- FLUSH_CACHE (R81, R190). -/
def manageFlushCache (seq : Octet) (s : State) : State :=
  if s.um.service = .quiesced then
    answer seq flushCacheCode .done []
      { s with rc := ⟨s.rc.patron.flush, s.rc.title.flush, s.rc.item.flush⟩ }
  else answer seq flushCacheCode .notQuiesced [] s

/-! ## READ_STATUS (R191, R202) -/

/-- Service state codes (R202). -/
def Service.code : Service → Octet
  | .normal => 0
  | .quiescing => 1
  | .quiesced => 2

/-- Override codes (R201). -/
def Override.code : Override → Octet
  | .localKinds => 0
  | .relayAll => 1
  | .refuseAll => 2

/-- Lane mode codes (R202). -/
def LaneMode.code : LaneMode → Octet
  | .isolated => 0
  | .serve => 1
  | .starting _ => 2

/-- A drop's octet of the status block (R202). -/
def DropRecord.code (r : DropRecord) : Octet :=
  let e : Octet := match r.enrolment with
    | .off => 0
    | .served => 1
    | .relayed => 2
  match r.presence with
  | .present => e
  | .absent => e + 4

/-- A lane's 10 octets of the status block (R202). -/
def Lane.statusOctets (l : Lane) : List Octet :=
  l.mode.code :: octet l.rate :: allDrops.map fun d => (l.dropRec d).code

/-- Operation codes (R202). -/
def OpKind.code : OpKind → Octet
  | .clear => 1
  | .write .. => 2
  | .close => 3

/-- The store's 4 octets of the status block (R183, R202). -/
def RuleStore.statusOctets (r : RuleStore) : List Octet :=
  let flags : Octet := (if r.writeError then 1 else 0) + (if r.sequenceError then 2 else 0)
  match r.operation with
  | none => [0, 0, 0, flags]
  | some o => [1, o.kind.code, octet o.block, flags]

/-- The READ_STATUS block, 58 octets (R191, R202). -/
def statusBlock (s : State) : List Octet :=
  beOctets 2 s.um.day.toNat ++
    [s.um.service.code, s.um.override.code, s.um.cause.code, s.bli.unitNumber.setWidth 8,
     octet (busyContexts s), octet (slotsInUse s)] ++
    beOctets 2 s.rc.patron.occupancy ++ beOctets 2 s.rc.title.occupancy ++ beOctets 2 s.rc.item.occupancy ++
    allLanes.flatMap (fun i => (s.lane i).statusOctets) ++ s.rs.statusOctets

/-- READ_STATUS (R191). -/
def manageReadStatus (seq : Octet) (s : State) : State := answer seq readStatusCode .done (statusBlock s) s

/-! ## READ_COUNTERS (R192) -/

/-- The 44 counters: lanes 0 to 3, the link, the transactions (R192). -/
def allCounters (s : State) : List Counter :=
  allLanes.flatMap (fun i => (s.lane i).counters.toList) ++ s.bli.counters.toList ++ s.dct.counters.toList

/-- Every counter set to 0 (R192). -/
def clearCounters (s : State) : State :=
  { s with
    lanes := s.lanes.map fun l => { l with counters := LaneCounters.zero }
    bli := { s.bli with counters := LinkCounters.zero }
    dct := { s.dct with counters := TxnCounters.zero } }

/-- READ_COUNTERS (R192): the report, with every counter cleared in the same taking when the flag is set. -/
def manageReadCounters (seq clearAfter : Octet) (s : State) : State :=
  answer seq readCountersCode .done ((allCounters s).flatMap fun c => beOctets 2 c.toNat)
    (if clearAfter ≠ 0 then clearCounters s else s)

/-! ## Resets and power (R24, R182, R193) -/

/-- A reset: every block at its stated values, the rule store's blocks and the commands waiting kept. -/
def resetAll (phase : RxPhase) (straps : BitVec 6) (cause : ResetCause) (s : State) : State :=
  State.afterReset phase straps cause s.rs.blocks s.pending

/-- RESET_UNIT (R193): as RSTN, with cause COMMAND and the receiver kept in FRAME. -/
def manageResetUnit (straps : BitVec 6) (s : State) : State := resetAll .frame straps .command s

/-- Loss of power (R182): a running store operation is cut short, its block staying INCOMPLETE; the store is READY
with both flags clear (R172), and nothing else happens until power returns (DESIGN CHOICE, log entry 5). -/
def losePower (s : State) : State :=
  { s with powered := false, rs := { s.rs with operation := none, writeError := false, sequenceError := false } }

end Sys2Proof.Machine
end

