-- ==== Sys2Proof/Machine/Receive.lean ====
section
/-! DEFINITION. The receiving side of the branch link: octets into frames (R26, R28), the checks on a frame (R29,
R196), its steering by kind (R31), RELAY_DOWN (R37), and UM's taking of a MGMT frame (R185). -/

namespace Sys2Proof.Machine

/-! ## Octets into frames (R28) -/

/-- A frame is discarded: CRC/length errors advances, and the receiver takes the phase given with its assembly empty
(R28). -/
def Bli.discardFrame (b : Bli) (phase : RxPhase) : Bli :=
  { b.count .crcLength with phase := phase, assembly := [], escape := false }

/-- A content octet is added; one past 488 discards the frame (R28). -/
def Bli.addOctet (b : Bli) (o : Octet) : Bli :=
  if 488 ≤ b.assembly.length then b.discardFrame .hunt
  else { b with assembly := b.assembly ++ [o], escape := false }

/-- In HUNT the last eight bits form 0xA5: the receiver enters FRAME on that boundary with the assembly empty (R26). -/
def Bli.foundBoundary (b : Bli) : Bli := { b with phase := .frame, bits := [], assembly := [], escape := false }

/-- The receiver in FRAME takes one octet, and hands on the content of a frame it closes (R28); in HUNT there are bits
and no octets (R26). A delimiter after a lone escape octet discards the frame (DEDUCED, log entry 34). -/
def Bli.takeOctet (b : Bli) (o : Octet) : Bli × Option (List Octet) :=
  match b.phase with
  | .hunt => (b, none)
  | .frame =>
    if o = 0xA5 then
      if b.escape ∨ (b.assembly.length ≠ 0 ∧ b.assembly.length < 8) then (b.discardFrame .frame, none)
      else if b.assembly.length = 0 then (b, none)
      else ({ b with assembly := [] }, some b.assembly)
    else if b.escape then
      if o = 0xE5 then (b.addOctet 0xA5, none)
      else if o = 0xE6 then (b.addOctet 0xA6, none)
      else (b.discardFrame .hunt, none)
    else if o = 0xA6 then ({ b with escape := true }, none)
    else (b.addOctet o, none)

/-- The outcome of the checks of R29: the counter that advances, or the frame's kind, tag and payload. -/
def checkContent (unit : BitVec 6) (content : List Octet) : Except LinkCounter (Octet × Tag × List Octet) :=
  let n := natAt content 4 2
  let kind := content.getD 0 0
  if 480 < n ∨ content.length ≠ n + 8 then .error .crcLength
  else if crc (content.take (n + 6)) ≠ BitVec.ofNat 16 (natAt content (n + 6) 2) then .error .crcLength
  else if content.getD 1 0 ≠ unit.setWidth 8 then .error .wrongUnit
  else match payloadAccepted kind n with
    | none => .error .unknownKind
    | some false => .error .crcLength
    | some true => .ok (kind, BitVec.ofNat 16 (natAt content 2 2), (content.drop 6).take n)

/-! ## Steering (R31) -/

/-- RELAY_DOWN (R37): offered to the lane and drop it names, or discarded and counted. -/
def takeRelayDown (lane drop : Octet) (body : List Octet) (s : State) : State :=
  match laneOf lane, dropOf drop with
  | some i, some d => offerReply i d body s
  | _, _ => s.countLink .lateTags

/-- UM takes a MGMT frame unless 16 replies are held or owed already; then it is discarded without a reply and no
counter advances (R185). -/
def takeMgmt (f : State → State) (s : State) : State := if 16 ≤ repliesOwed s then s else f s

/-- A good frame is handed to the block that handles its kind (R31). A command that is no frame has no effect. -/
def steer (i : Instr) (s : State) : State :=
  match i with
  | .relayDown lane drop body => takeRelayDown lane drop body s
  | .segment tag kind key version index flags data => takeSegment tag kind key version index flags data s
  | .absent tag => takeAbsent tag s
  | .defer tag code => takeDefer tag code s
  | .invalidate kind key version => takeInvalidate kind key version s
  | .result tag attempt outcome versions => takeResult tag attempt outcome versions s
  | .setLane seq lane mode rate => takeMgmt (manageSetLane seq lane mode rate) s
  | .setDrop seq lane drop enrolment => takeMgmt (manageSetDrop seq lane drop enrolment) s
  | .setDay seq day => takeMgmt (manageSetDay seq day) s
  | .setOverride seq value => takeMgmt (manageSetOverride seq value) s
  | .quiesce seq => takeMgmt (manageQuiesce seq) s
  | .resumeService seq => takeMgmt (manageResumeService seq) s
  | .flushCache seq => takeMgmt (manageFlushCache seq) s
  | .readStatus seq => takeMgmt (manageReadStatus seq) s
  | .readCounters seq clearAfter => takeMgmt (manageReadCounters seq clearAfter) s
  | .resetUnit _ straps => takeMgmt (manageResetUnit straps) s
  | .unknownCommand seq code _ => takeMgmt (answer seq code .badValue []) s
  | .tableClear seq block => takeMgmt (takeTableClear seq block) s
  | .tableWrite seq block entry values => takeMgmt (takeTableWrite seq block entry values) s
  | .tableClose seq block => takeMgmt (takeTableClose seq block) s
  | .tableAbort seq => takeMgmt (takeTableAbort seq) s
  | .tableRead seq block entry => takeMgmt (takeTableRead seq block entry) s
  | .tableStatusClear seq => takeMgmt (takeTableStatusClear seq) s
  | .resetLine _ | .powerLoss | .breakEnd _ | .gapEnd _ | .turnStart _ | .laneTransmitEnd _ | .laneCharacter ..
  | .frameGapTimeout _ | .quietWaitEnd _ | .answerWindowTimeout _ | .heldCharacterStands _ | .breakReceived _
  | .linkFrameError _ | .deferDelayEnd _ | .fetchTimeout _ | .commitTimeout _ | .transactionDeadline _
  | .transmitFrameEnd | .renew | .pay | .account | .hold | .cancel | .suspend | .resume | .clearComplete
  | .writeComplete | .closeComplete | .octetBoundaryFound => s

/-- An assembled frame is checked: a bad one advances one counter, a good one is counted and steered (R29). -/
def checkFrame (content : List Octet) (s : State) : State :=
  match checkContent s.bli.unitNumber content with
  | .error counter => s.countLink counter
  | .ok (kind, tag, payload) =>
    match decodeFrame s.bli.unitNumber kind tag payload with
    | some i => steer i (s.countLink .framesTaken)
    | none => s.countLink .crcLength

/-- One octet is taken on the boundary (R28, R29). -/
def receiveOctet (s : State) (o : Octet) : State :=
  let r := s.bli.takeOctet o
  let s' := { s with bli := r.1 }
  match r.2 with
  | some content => checkFrame content s'
  | none => s'

/-- The receiver with some bits kept for the octet under way, or for the hunt. -/
def State.withBits (s : State) (bits : List Bool) : State := { s with bli := { s.bli with bits := bits } }

/-- One bit arrives on BRX (R26). In HUNT it is looked at with the seven before it: 0xA5 fixes the boundary there. In
FRAME every eighth bit completes an octet on the boundary; where that octet sends the receiver to HUNT, its last seven
bits are among the last eight of the next look (DEDUCED, log entry 9). -/
def receiveBit (s : State) (b : Bool) : State :=
  let bits := s.bli.bits ++ [b]
  if bits.length < 8 then s.withBits bits
  else match s.bli.phase with
    | .hunt =>
      if octetOfBits bits = 0xA5 then { s with bli := s.bli.foundBoundary } else s.withBits (bits.drop 1)
    | .frame =>
      let s' := receiveOctet (s.withBits []) (octetOfBits bits)
      if s'.bli.phase = .hunt then s'.withBits (bits.drop 1) else s'

/-- Eight bits arrive on BRX, most significant first (R25). In HUNT, and behind a boundary that the hunt found inside an
octet, the receiver takes them by its own boundary (R26). -/
def receiveLine (s : State) (o : Octet) : State := (octetBits o).foldl receiveBit s

/-- OCTET_BOUNDARY_FOUND: the receiver enters FRAME from HUNT (R26). -/
def findBoundary (s : State) : State :=
  match s.bli.phase with
  | .hunt => { s with bli := s.bli.foundBoundary }
  | .frame => s

/-- A frame's opening delimiter arrives, bit by bit as every octet: in HUNT it fixes the boundary, unless the bits before
it do so within it (R26); on the boundary in FRAME it ends whatever was assembled (R28); and in FRAME off the boundary it
is part of two octets of the boundary the receiver keeps (R26). -/
def openFrame (s : State) : State := receiveLine s 0xA5

/-- The receiver is in FRAME with no octet under way. -/
def Bli.onBoundary (b : Bli) : Bool := decide (b.phase = .frame) && b.bits.isEmpty

/-- LINK_FRAME_ERROR: after its opening delimiter the frame's octets arrive bit by bit (R26, R28, R29). -/
def receiveOctets (octets : List Octet) (s : State) : State := octets.foldl receiveLine (openFrame s)

/-- The octets of the frame a command arrives as, behind the opening delimiter: its content with the escapes, and the
closing delimiter (R27, R195). -/
def frameOctets (unit : BitVec 6) (i : Instr) : List Octet :=
  match encodeFrame i with
  | some (kind, tag, payload) => escaped (contentOf kind (unit.setWidth 8) tag payload) ++ [0xA5]
  | none => []

/-- The frame of a command arrives. Where its opening delimiter leaves the receiver on the frame's own octets, the frame is
taken whole: with a payload length its kind does not accept it fails test 5 (R29, R196), else it is good and its block
takes it (R31). Where the receiver's boundary is another, and where the payload is over 480 octets, the octets are taken
bit by bit as they fall (R26, R28, DESIGN CHOICE, log entry 6, and DEDUCED, log entry 27). -/
def arrive (i : Instr) (f : State → State) (s : State) : State :=
  let s' := openFrame s
  match encodeFrame i with
  | none => s'
  | some (kind, _, payload) =>
    if s'.bli.onBoundary && decide (payload.length ≤ 480) then
      if payloadAccepted kind payload.length = some true then f (s'.countLink .framesTaken) else s'.countLink .crcLength
    else (frameOctets s.bli.unitNumber i).foldl receiveLine s'

/-- A MGMT frame arrives for UM (R185). -/
def arriveMgmt (i : Instr) (f : State → State) : State → State := arrive i (takeMgmt f)

end Sys2Proof.Machine
end

