-- ==== Sys2Proof/Machine/LinkCommands.lean ====
section
/-! DEFINITION. The meanings of the frames that arrive on the branch link, management commands apart (R28-R32, R37, R77,
R88, R99, R102, R111), of the octet boundary (R26) and of the end of a transmission (R33). -/

namespace Sys2Proof.Machine

/-- LINK_FRAME_ERROR (R28, R29, R39): the frame's octets are taken, and it is discarded by the test it fails. -/
def execLinkFrameError (octets : List Octet) (s : State) : Host.Outcome State Fault Refusal :=
  .next (live (receiveOctets octets) s)

/-- RELAY_DOWN (R37, R20). -/
def execRelayDown (lane drop : Octet) (body : List Octet) (s : State) : Host.Outcome State Fault Refusal :=
  .next (live (arrive (.relayDown lane drop body) (takeRelayDown lane drop body)) s)

/-- SEGMENT (R88-R96). -/
def execSegment (tag : Tag) (kind : Octet) (key : Key) (version : Version) (index flags : Octet) (data : List Octet) (s : State) :
    Host.Outcome State Fault Refusal :=
  .next (live (arrive (.segment tag kind key version index flags data)
    (takeSegment tag kind key version index flags data)) s)

/-- ABSENT (R102, R103). -/
def execAbsent (tag : Tag) (s : State) : Host.Outcome State Fault Refusal :=
  .next (live (arrive (.absent tag) (takeAbsent tag)) s)

/-- DEFER (R99, R101). -/
def execDefer (tag : Tag) (code : Octet) (s : State) : Host.Outcome State Fault Refusal :=
  .next (live (arrive (.defer tag code) (takeDefer tag code)) s)

/-- INVALIDATE (R77-R79, R97, R98). -/
def execInvalidate (kind : Octet) (key : Key) (version : Version) (s : State) : Host.Outcome State Fault Refusal :=
  .next (live (arrive (.invalidate kind key version) (takeInvalidate kind key version)) s)

/-- RESULT (R111-R114, R116-R119). -/
def execResult (tag : Tag) (attempt outcome : Octet) (versions : List Version) (s : State) :
    Host.Outcome State Fault Refusal :=
  .next (live (arrive (.result tag attempt outcome versions) (takeResult tag attempt outcome versions)) s)

/-- TRANSMIT_FRAME_END (R33, R86, R109, R185). -/
def execTransmitFrameEnd (s : State) : Host.Outcome State Fault Refusal :=
  .next (live endFrame s)

/-- OCTET_BOUNDARY_FOUND (R26). -/
def execOctetBoundaryFound (s : State) : Host.Outcome State Fault Refusal :=
  .next (live findBoundary s)

end Sys2Proof.Machine
end

