-- ==== Sys2Proof/Machine/ManagementCommands.lean ====
section
/-! DEFINITION. The meanings of Unit Management's own commands (R185-R193, R202), each a MGMT frame. -/

namespace Sys2Proof.Machine

/-- SET_LANE (R4, R186). -/
def execSetLane (seq lane mode rate : Octet) (s : State) : Host.Outcome State Fault Refusal :=
  .next (live (arriveMgmt (.setLane seq lane mode rate) (manageSetLane seq lane mode rate)) s)

/-- SET_DROP (R10, R186). -/
def execSetDrop (seq lane drop enrolment : Octet) (s : State) : Host.Outcome State Fault Refusal :=
  .next (live (arriveMgmt (.setDrop seq lane drop enrolment) (manageSetDrop seq lane drop enrolment)) s)

/-- SET_DAY (R187). -/
def execSetDay (seq : Octet) (day : Day) (s : State) : Host.Outcome State Fault Refusal :=
  .next (live (arriveMgmt (.setDay seq day) (manageSetDay seq day)) s)

/-- SET_OVERRIDE (R188). -/
def execSetOverride (seq value : Octet) (s : State) : Host.Outcome State Fault Refusal :=
  .next (live (arriveMgmt (.setOverride seq value) (manageSetOverride seq value)) s)

/-- QUIESCE (R189). -/
def execQuiesce (seq : Octet) (s : State) : Host.Outcome State Fault Refusal :=
  .next (live (arriveMgmt (.quiesce seq) (manageQuiesce seq)) s)

/-- RESUME_SERVICE (R189). -/
def execResumeService (seq : Octet) (s : State) : Host.Outcome State Fault Refusal :=
  .next (live (arriveMgmt (.resumeService seq) (manageResumeService seq)) s)

/-- FLUSH_CACHE (R81, R190). -/
def execFlushCache (seq : Octet) (s : State) : Host.Outcome State Fault Refusal :=
  .next (live (arriveMgmt (.flushCache seq) (manageFlushCache seq)) s)

/-- READ_STATUS (R191, R202). -/
def execReadStatus (seq : Octet) (s : State) : Host.Outcome State Fault Refusal :=
  .next (live (arriveMgmt (.readStatus seq) (manageReadStatus seq)) s)

/-- READ_COUNTERS (R192). -/
def execReadCounters (seq clearAfter : Octet) (s : State) : Host.Outcome State Fault Refusal :=
  .next (live (arriveMgmt (.readCounters seq clearAfter) (manageReadCounters seq clearAfter)) s)

/-- RESET_UNIT (R193, R30): it has no reply, so its sequence octet goes nowhere. -/
def execResetUnit (seq : Octet) (straps : BitVec 6) (s : State) : Host.Outcome State Fault Refusal :=
  .next (live (arriveMgmt (.resetUnit seq straps) (manageResetUnit straps)) s)

/-- UNKNOWN_COMMAND (R185, R202); one whose code and arguments are a command's is that command (log entry 33). -/
def execUnknownCommand (seq code : Octet) (args : List Octet) (s : State) : Host.Outcome State Fault Refusal :=
  .next (live (arrive (.unknownCommand seq code args) (steer (decodeMgmt s.bli.unitNumber seq code args))) s)

end Sys2Proof.Machine
end

