-- ==== Sys2Proof/Machine/StoreCommands.lean ====
section
/-! DEFINITION. The meanings of the table commands, each a MGMT frame, and of the completions of store operations (R172-R181). -/

namespace Sys2Proof.Machine

/-- TABLE_CLEAR (R173). -/
def execTableClear (seq block : Octet) (s : State) : Host.Outcome State Fault Refusal :=
  .next (live (arriveMgmt (.tableClear seq block) (takeTableClear seq block)) s)

/-- TABLE_WRITE (R174). -/
def execTableWrite (seq block entry : Octet) (values : List Octet) (s : State) : Host.Outcome State Fault Refusal :=
  .next (live (arriveMgmt (.tableWrite seq block entry values) (takeTableWrite seq block entry values)) s)

/-- TABLE_CLOSE (R176). -/
def execTableClose (seq block : Octet) (s : State) : Host.Outcome State Fault Refusal :=
  .next (live (arriveMgmt (.tableClose seq block) (takeTableClose seq block)) s)

/-- TABLE_ABORT (R177). -/
def execTableAbort (seq : Octet) (s : State) : Host.Outcome State Fault Refusal :=
  .next (live (arriveMgmt (.tableAbort seq) (takeTableAbort seq)) s)

/-- TABLE_READ (R179). -/
def execTableRead (seq block entry : Octet) (s : State) : Host.Outcome State Fault Refusal :=
  .next (live (arriveMgmt (.tableRead seq block entry) (takeTableRead seq block entry)) s)

/-- TABLE_STATUS_CLEAR (R180). -/
def execTableStatusClear (seq : Octet) (s : State) : Host.Outcome State Fault Refusal :=
  .next (live (arriveMgmt (.tableStatusClear seq) (takeTableStatusClear seq)) s)

/-- CLEAR_COMPLETE (R173). -/
def execClearComplete (s : State) : Host.Outcome State Fault Refusal :=
  .next (live clearCompletes s)

/-- WRITE_COMPLETE (R174, R175). -/
def execWriteComplete (s : State) : Host.Outcome State Fault Refusal :=
  .next (live writeCompletes s)

/-- CLOSE_COMPLETE (R176, R140, R181). -/
def execCloseComplete (s : State) : Host.Outcome State Fault Refusal :=
  .next (live closeCompletes s)

end Sys2Proof.Machine
end

