-- ==== Sys2Proof/Machine/TimerCommands.lean ====
section
/-! DEFINITION. The meanings of the timers of FU, CU and DCT running out (R55, R87, R100, R115). -/

namespace Sys2Proof.Machine

/-- DEFER_DELAY_END (R100). -/
def execDeferDelayEnd (i : SlotId) (s : State) : Host.Outcome State Fault Refusal :=
  .next (live (endDelay i) s)

/-- FETCH_TIMEOUT (R87, R103). -/
def execFetchTimeout (i : SlotId) (s : State) : Host.Outcome State Fault Refusal :=
  .next (live (fetchTimerOut i) s)

/-- COMMIT_TIMEOUT (R115). -/
def execCommitTimeout (c : CtxId) (s : State) : Host.Outcome State Fault Refusal :=
  .next (live (commitTimerOut c) s)

/-- TRANSACTION_DEADLINE (R55). -/
def execTransactionDeadline (c : CtxId) (s : State) : Host.Outcome State Fault Refusal :=
  .next (live (deadlineFalls c) s)

end Sys2Proof.Machine
end

