-- ==== Sys2Proof/Machine/UnitCommands.lean ====
section
/-! DEFINITION. The meanings of RESET_LINE and POWER_LOSS. -/

namespace Sys2Proof.Machine

/-- RESET_LINE (R24, R30, R38, R182, R184): every block at its stated values, the rule store's blocks kept, the
unit number read from the straps, the receiver in HUNT. The return of power acts the same way (00, Reset). -/
def execResetLine (straps : BitVec 6) (s : State) : Host.Outcome State Fault Refusal :=
  .next (resetAll .hunt straps .line s)

/-- POWER_LOSS (R182). -/
def execPowerLoss (s : State) : Host.Outcome State Fault Refusal :=
  .next (live losePower s)

end Sys2Proof.Machine
end

