-- ==== Sys2Proof/Machine/Dispatch.lean ====
section
/-! DEFINITION. One arm for each command, each a direct call of the command's meaning. -/

namespace Sys2Proof.Machine

def exec (i : Instr) (s : State) : Host.Outcome State Fault Refusal :=
  match i with
  | .resetLine straps => Sys2Proof.Machine.execResetLine straps s
  | .powerLoss => Sys2Proof.Machine.execPowerLoss s
  | .setLane seq lane mode rate => Sys2Proof.Machine.execSetLane seq lane mode rate s
  | .setDrop seq lane drop enrolment => Sys2Proof.Machine.execSetDrop seq lane drop enrolment s
  | .breakEnd lane => Sys2Proof.Machine.execBreakEnd lane s
  | .gapEnd lane => Sys2Proof.Machine.execGapEnd lane s
  | .turnStart lane => Sys2Proof.Machine.execTurnStart lane s
  | .laneTransmitEnd lane => Sys2Proof.Machine.execLaneTransmitEnd lane s
  | .laneCharacter lane samples => Sys2Proof.Machine.execLaneCharacter lane samples s
  | .frameGapTimeout lane => Sys2Proof.Machine.execFrameGapTimeout lane s
  | .quietWaitEnd lane => Sys2Proof.Machine.execQuietWaitEnd lane s
  | .answerWindowTimeout lane => Sys2Proof.Machine.execAnswerWindowTimeout lane s
  | .heldCharacterStands lane => Sys2Proof.Machine.execHeldCharacterStands lane s
  | .breakReceived lane => Sys2Proof.Machine.execBreakReceived lane s
  | .linkFrameError octets => Sys2Proof.Machine.execLinkFrameError octets s
  | .relayDown lane drop body => Sys2Proof.Machine.execRelayDown lane drop body s
  | .segment tag kind key version index flags data => Sys2Proof.Machine.execSegment tag kind key version index flags data s
  | .absent tag => Sys2Proof.Machine.execAbsent tag s
  | .defer tag code => Sys2Proof.Machine.execDefer tag code s
  | .deferDelayEnd slot => Sys2Proof.Machine.execDeferDelayEnd slot s
  | .fetchTimeout slot => Sys2Proof.Machine.execFetchTimeout slot s
  | .invalidate kind key version => Sys2Proof.Machine.execInvalidate kind key version s
  | .result tag attempt outcome versions => Sys2Proof.Machine.execResult tag attempt outcome versions s
  | .commitTimeout ctx => Sys2Proof.Machine.execCommitTimeout ctx s
  | .transactionDeadline ctx => Sys2Proof.Machine.execTransactionDeadline ctx s
  | .transmitFrameEnd => Sys2Proof.Machine.execTransmitFrameEnd s
  | .renew => Sys2Proof.Machine.execRenew s
  | .pay => Sys2Proof.Machine.execPay s
  | .account => Sys2Proof.Machine.execAccount s
  | .hold => Sys2Proof.Machine.execHold s
  | .cancel => Sys2Proof.Machine.execCancel s
  | .suspend => Sys2Proof.Machine.execSuspend s
  | .resume => Sys2Proof.Machine.execResume s
  | .setDay seq day => Sys2Proof.Machine.execSetDay seq day s
  | .setOverride seq value => Sys2Proof.Machine.execSetOverride seq value s
  | .quiesce seq => Sys2Proof.Machine.execQuiesce seq s
  | .resumeService seq => Sys2Proof.Machine.execResumeService seq s
  | .flushCache seq => Sys2Proof.Machine.execFlushCache seq s
  | .readStatus seq => Sys2Proof.Machine.execReadStatus seq s
  | .readCounters seq clearAfter => Sys2Proof.Machine.execReadCounters seq clearAfter s
  | .resetUnit seq straps => Sys2Proof.Machine.execResetUnit seq straps s
  | .unknownCommand seq code args => Sys2Proof.Machine.execUnknownCommand seq code args s
  | .tableClear seq block => Sys2Proof.Machine.execTableClear seq block s
  | .tableWrite seq block entry values => Sys2Proof.Machine.execTableWrite seq block entry values s
  | .tableClose seq block => Sys2Proof.Machine.execTableClose seq block s
  | .tableAbort seq => Sys2Proof.Machine.execTableAbort seq s
  | .tableRead seq block entry => Sys2Proof.Machine.execTableRead seq block entry s
  | .tableStatusClear seq => Sys2Proof.Machine.execTableStatusClear seq s
  | .clearComplete => Sys2Proof.Machine.execClearComplete s
  | .writeComplete => Sys2Proof.Machine.execWriteComplete s
  | .closeComplete => Sys2Proof.Machine.execCloseComplete s
  | .octetBoundaryFound => Sys2Proof.Machine.execOctetBoundaryFound s

end Sys2Proof.Machine
end

