-- ==== Sys2Proof/Safety.lean ====
section
/-! DEFINITION. What counts as a safe run, the conditions under which commands take their effect, and the invariants
that claims about every step use. -/

namespace Sys2Proof.Safety

open Sys2Proof.Machine

/-! ## Safe runs -/

/-- A run of `k` steps is safe when it meets no fault and no refusal. -/
def SafeFor (k : Nat) (s : State) : Prop := ∃ t, Sys2Proof.core.run k s = .next t

/-! ## Conditions on the receiver and on Unit Management -/

/-- The next delimiter sets the receiver on its own last bit (R26): in FRAME no octet is under way, and in HUNT no part of
the delimiter forms 0xA5 with the bits held before it. -/
def aligned (b : Bli) : Bool :=
  match b.phase with
  | .frame => b.bits.isEmpty
  | .hunt => decide (b.bits.length ≤ 7) && (List.range 8).all fun j => decide (8 ≤ b.bits.length + j →
      octetOfBits ((b.bits ++ (octetBits 0xA5).take j).drop (b.bits.length + j - 8)) ≠ 0xA5)

/-- The part has power, and its receiver has nothing assembled and hears the next delimiter in its place: it is between
frames (R24, R26, R28). -/
def Listening (s : State) : Prop :=
  s.powered = true ∧ s.bli.assembly = [] ∧ s.bli.escape = false ∧ aligned s.bli = true

/-- The part hears the opening delimiter of a frame: the receiver is in FRAME on its boundary (R26, R28). -/
def heard (s : State) : State := { s with bli := { s.bli with phase := .frame, bits := [] } }

/-- A frame that passed the checks of R29 has been counted under frames taken. -/
def counted (s : State) : State := (heard s).countLink .framesTaken

/-- A frame that failed test 1, 2 or 5 of R29 has been counted under CRC/length errors. -/
def miscounted (s : State) : State := (heard s).countLink .crcLength

/-- An answer that found nothing to apply to has been counted under frames taken and late or unknown tags (R32). -/
def countedLate (s : State) : State := (counted s).countLink .lateTags

/-- UM takes the next MGMT frame: the receiver is between frames and fewer than 16 replies are held or owed (R185). -/
def Manageable (s : State) : Prop := Listening s ∧ repliesOwed s < 16

/-! ## Contexts as other contexts' events leave them -/

/-- What no event of another transaction changes in a busy context: who it is, its request, its deadline, its
regather count, its ABANDONED flag, its UPDATE, and whether it is in COMMIT (R46, R47). -/
structure Card where
  lane : LaneId
  drop : DropId
  kioskTag : Octet
  request : Request
  deadline : Deadline
  regathers : Nat
  abandoned : Bool
  outstanding : Option Outstanding
  committing : Bool
deriving DecidableEq, Repr

/-- The card of a transaction. -/
def card (x : Txn) : Card :=
  ⟨x.lane, x.drop, x.kioskTag, x.request, x.deadline, x.regathers, x.abandoned, x.outstanding,
   decide (x.state = .commit)⟩

/-- The card of a context, `none` when it is FREE. -/
def cardOf (s : State) (c : CtxId) : Option Card := (s.txn c).map card

/-- What the events of transactions leave alone: power, the commands waiting, the rule store, the county day, the
override, the reset cause, the receiver, the unit number and the link counters. -/
structure Apart (s t : State) : Prop where
  powered : t.powered = s.powered
  pending : t.pending = s.pending
  store : t.rs = s.rs
  day : t.um.day = s.um.day
  override : t.um.override = s.um.override
  cause : t.um.cause = s.um.cause
  phase : t.bli.phase = s.bli.phase
  assembly : t.bli.assembly = s.bli.assembly
  escape : t.bli.escape = s.bli.escape
  unitNumber : t.bli.unitNumber = s.bli.unitNumber
  link : t.bli.counters = s.bli.counters

/-- A context ended with a final outcome (R57, R58): it is FREE, one transaction counter advanced, its reply was offered
to its lane unless it was ABANDONED, and no other context ended or changed hands. -/
structure Ended (c : CtxId) (x : Txn) (code : ResultCode) (fields : List Octet) (s t : State) : Prop where
  free : t.txn c = none
  generation : (t.ctx c).gen = (s.ctx c).gen
  counters : t.dct.counters = s.dct.counters.advance code.outcomeCounter
  lanes : t.lanes = (if x.abandoned then s
    else offerReply x.lane x.drop (replyBody x.request.kindCode x.kioskTag code fields) s).lanes
  others : ∀ d : CtxId, d ≠ c → cardOf t d = cardOf s d
  commits : t.cu = s.cu
  apart : Apart s t

/-- A context is on no list: no wait list, no allocation queue, and none of AU's (R67, R70, R136). -/
def OnNoList (s : State) (c : CtxId) : Prop :=
  (∀ k, c ∉ (s.pool k).queue) ∧ c ∉ s.au.list ∧ c ∉ s.au.waits ∧
    ∀ k n, match s.entry k n with
      | .filling _ ws | .valid _ _ ws => c ∉ ws
      | .empty | .transient .. => True

/-- A context let go of what its needs hold, before anything that this sets off (R53 steps 1 to 3, R57 step 2, R73, R76).
A stale lock's entry is EMPTY and its waiters look up again; any other lock passes to its oldest waiter, or the entry
stays unlocked; an owned TRANSIENT entry is EMPTY; every other entry only loses the context from its wait list; and the
context is on no list any more. What is set off are the waiters that go on and the pools that have freed room (R67). -/
structure Released (c : CtxId) (x : Txn) (s : State) (r : State × List Task) : Prop where
  stale : ∀ k key n copy ws, x.need k = some ⟨key, some n, true⟩ → s.entry k n = .valid copy (some c) ws →
    copy.stale ≠ none → r.1.entry k n = .empty ∧ .retry k ∈ r.2 ∧ ∀ w ∈ ws, w ≠ c → .resume w ∈ r.2
  unlocked : ∀ k key n copy ws, x.need k = some ⟨key, some n, true⟩ → s.entry k n = .valid copy (some c) ws →
    copy.stale = none → (∀ w ∈ ws, w = c) → r.1.entry k n = .valid copy none [] ∧ .retry k ∈ r.2
  passed : ∀ k key n copy ws w rest, x.need k = some ⟨key, some n, true⟩ → s.entry k n = .valid copy (some c) ws →
    copy.stale = none → ws.filter (fun v => decide (v ≠ c)) = w :: rest →
    r.1.entry k n = .valid copy (some w) rest ∧ .resume w ∈ r.2 ∧
      ∀ y, s.txn w = some y → ∃ z, r.1.txn w = some z ∧ z.need k = (y.need k).map fun m => ⟨m.key, some n, true⟩
  owned : ∀ k key n copy tainted, x.need k = some ⟨key, some n, true⟩ → s.entry k n = .transient copy tainted c →
    r.1.entry k n = .empty ∧ .retry k ∈ r.2
  others : ∀ k n, (∀ key, x.need k ≠ some ⟨key, some n, true⟩) → r.1.entry k n = (s.entry k n).dropWaiter c
  lists : OnNoList r.1 c

/-- The entry is EMPTY, or has been allocated again since it was. -/
def Vacated (s : State) (k : RecordKind) (n : Nat) : Prop :=
  s.entry k n = .empty ∨ ∃ key ws, s.entry k n = .filling key ws

/-- A context that was freed holds no entry that a need of its held, and a TRANSIENT or stale one of these is EMPTY or
allocated again (R73, R76). The premise on wait lists, that the context waits for no lock in a pool where it holds one, rules
out states that no run reaches. -/
def LetGo (c : CtxId) (x : Txn) (s t : State) : Prop :=
  ∀ k key n, x.need k = some ⟨key, some n, true⟩ → (∀ m copy o ws, s.entry k m = .valid copy o ws → c ∉ ws) →
    (∀ copy ws, t.entry k n ≠ .valid copy (some c) ws) ∧ (∀ copy tainted, t.entry k n ≠ .transient copy tainted c) ∧
      ((∃ copy tainted, s.entry k n = .transient copy tainted c) ∨
        (∃ copy ws, s.entry k n = .valid copy (some c) ws ∧ copy.stale ≠ none) → Vacated t k n)

/-- An abort reached the contexts a test names (R59): in GATHER or DECIDE they are FREE, in COMMIT ABANDONED; no other
context ended, no counter of transactions moved. A freed context is on no list and has let go of what its needs held. Where
the abort frees one context alone, it lets go of all it holds as at its end, and what that sets off follows. -/
structure Aborted (test : Txn → Prop) (s t : State) : Prop where
  freed : ∀ c x, s.txn c = some x → test x → x.state ≠ .commit → t.txn c = none
  abandoned : ∀ c x, s.txn c = some x → test x → x.state = .commit →
    cardOf t c = some { card x with abandoned := true }
  lists : ∀ c x, s.txn c = some x → test x → x.state ≠ .commit → OnNoList t c
  released : ∀ c x, s.txn c = some x → test x → x.state ≠ .commit → LetGo c x s t
  alone : ∀ c x, s.txn c = some x → test x → x.state ≠ .commit → (∀ d y, s.txn d = some y → test y → d = c) →
    ∃ r, Released c x s r ∧ { t with lanes := (settle r).lanes } = settle r
  others : ∀ c, (∀ x, s.txn c = some x → ¬ test x) → cardOf t c = cardOf s c
  counters : t.dct.counters = s.dct.counters
  commits : t.cu = s.cu
  apart : Apart s t

/-! ## Terms of the statements -/

/-- The lane with its turn begun for a drop: the oldest reply for the drop is delivered, else the drop is polled (R12). -/
def visiting (l : Lane) (d : DropId) : Lane :=
  { l with
    replies := l.replies.eraseP fun r => decide (r.drop = d)
    turn := some ⟨d, .transmitting (turnChars d (l.replies.find? fun r => decide (r.drop = d)))⟩
    lastVisited := d.val + 1
    idle := false
    held := .none }

/-- The link with some frames held for the line, the oldest of them in transmission; the position stays with a frame that
was in transmission already (R33). -/
def lineWith (b : Bli) (frames : List Frame) : Bli :=
  { b with
    transmitting := frames.head?
    txQueue := frames.tail
    sent := if b.transmitting.isSome then b.sent else 0 }

/-- The number in some octets of an image, high octet first (12). -/
def field (image : Image) (start count : Nat) : Nat :=
  ((image.drop start).take count).foldl (fun n o => n * 256 + o.toNat) 0

/-- The octets of a word, high octet first (12). -/
def octetsOf {n : Nat} (count : Nat) (v : BitVec n) : List Octet :=
  (List.range count).map fun j => v.extractLsb' (8 * (count - 1 - j)) 8

/-- The check register takes one bit: the division by x^16 + x^12 + x^5 + 1 (R29). -/
def checkBit (r : BitVec 16) (b : Bool) : BitVec 16 := if r.msb = b then r <<< 1 else (r <<< 1) ^^^ 0x1021

/-- A frame as it stands on the line: the delimiters, and between them the content with its escapes (R27, R195). -/
def onLine (unit : BitVec 6) (kind : Octet) (tag : Tag) (payload : List Octet) : List Octet :=
  0xA5 :: escaped (contentOf kind (unit.setWidth 8) tag payload) ++ [0xA5]

/-- The commit timer of a context has stopped, and an UPDATE it still owed to the line is dropped (R109, R111). -/
def stopped (c : CtxId) (s : State) : State :=
  s.setCommitRec c { s.commitRec c with timerRunning := false, owed := none }

/-- A drop qualifies for the lane's next turn (R11). -/
def Qualifies (l : Lane) (d : DropId) : Prop :=
  l.lastVisited < d.val + 1 ∧ (l.dropRec d).enrolment ≠ .off ∧
    ((l.dropRec d).presence = .present ∨ l.round = 0)

/-- The context dispatch gives an accepted frame: the lowest FREE one (R47). -/
def LowestFree (s : State) (c : CtxId) : Prop :=
  s.txn c = none ∧ ∀ c' : CtxId, c' < c → s.txn c' ≠ none

/-- The contexts of a drop in flight (R43). -/
def flying (s : State) (i : LaneId) (d : DropId) : List Txn :=
  (allContexts.filterMap s.txn).filter fun x => decide (x.lane = i ∧ x.drop = d)

/-- The state with one slot's fill replaced. -/
def withFill (s : State) (i : SlotId) (f : Fill) : State :=
  s.setSlot i { s.slot i with fill := some f }

/-- A transaction as it enters GATHER to start its lookups: the needs of its kind with their keys and no reference, a
RENEW's title need still to be settled (R47, R48, R53), and no day of decision, patron copy, rule wait or UPDATE. -/
def gathering (x : Txn) : Txn :=
  let y := { x with
    state := .gather, title := none, item := none, titleSettled := true, day := none, patronCopy := none
    ruleWait := none, outstanding := none }
  match x.request with
  | .renew p i => { y with patron := some ⟨p, none, false⟩, item := some ⟨i, none, false⟩, titleSettled := false }
  | .hold p t _ | .cancel p t | .suspend p t _ | .resume p t =>
    { y with patron := some ⟨p, none, false⟩, title := some ⟨t, none, false⟩ }
  | .pay p _ _ | .account p => { y with patron := some ⟨p, none, false⟩ }

/-- A request as acceptance gives it to a context (R47). -/
def accepted (i : LaneId) (d : DropId) (tag : Octet) (req : Request) : Txn :=
  gathering
    { state := .gather, lane := i, drop := d, kioskTag := tag, request := req, deadline := .running, patron := none,
      title := none, item := none, titleSettled := false, regathers := 0, day := none, abandoned := false,
      patronCopy := none, ruleWait := none, outstanding := none }

/-- The images of a decision have been read: each entry the context holds is most recent in its pool, but for an ACCOUNT,
which reads its copy (R60, R69, R136). -/
def imagesRead (x : Txn) (s : State) : State :=
  let moved := fun (k : RecordKind) (p : Pool) =>
    match x.need k with
    | some ⟨_, some n, true⟩ => { p with lru := if n ∈ p.lru then p.lru.erase n ++ [n] else p.lru }
    | _ => p
  match x.request with
  | .account _ => s
  | _ => { s with rc := ⟨moved .patron s.rc.patron, moved .title s.rc.title, moved .item s.rc.item⟩ }

/-- A slot's fill at a generation asks for segments: the FETCH is offered, or held back as the owed FETCH while an earlier
one of the slot is on the line (R86). -/
def asking (i : SlotId) (gen : Gen) (f : Fill) (first count : Nat) (s : State) : State :=
  if (s.slot i).onLine = true then s.setSlot i ⟨gen, some { f with owed := some (first, count) }, true⟩
  else sendFrame (.fetch i gen f.kind f.key first count) (s.setSlot i ⟨gen, some { f with owed := none }, true⟩)

/-- The fill with nothing received, as a start again leaves it (R90, R100). -/
def restarted (f : Fill) : Fill :=
  { f with phase := .requested, received := List.replicate f.kind.segments none, version := none, owed := none }

/-- The entry holds the key FILLING or VALID (R64). -/
def HoldsKey (s : State) (k : RecordKind) (key : Key) (n : Nat) : Prop :=
  match s.entry k n with
  | .filling x _ => x = key
  | .valid copy _ _ => copy.key = key
  | .empty | .transient .. => False

/-- The entry can be evicted (R66). -/
def Evictable (s : State) (k : RecordKind) (n : Nat) : Prop := ∃ copy, s.entry k n = .valid copy none []

/-- The entry an allocation takes: the lowest EMPTY one, or with none EMPTY the least recent that can be evicted (R65,
R66). -/
def Takes (s : State) (k : RecordKind) (n : Nat) : Prop :=
  (n < (s.pool k).entries.length ∧ s.entry k n = .empty ∧ ∀ m, m < n → s.entry k m ≠ .empty) ∨
  ((∀ m, m < (s.pool k).entries.length → s.entry k m ≠ .empty) ∧ Evictable s k n ∧
    ∃ older newer, (s.pool k).lru = older ++ n :: newer ∧ ∀ m ∈ older, ¬ Evictable s k m)

/-- The context has left the pool's allocation queue (R67). -/
def unqueued (c : CtxId) (k : RecordKind) (s : State) : State :=
  s.setPool k { s.pool k with queue := (s.pool k).queue.filter fun d => decide (d ≠ c) }

/-- The entry allocated for a context's lookup: FILLING with the key and the context as first waiter, most recent in the
order of use, and the context off the allocation queue (R65). -/
def allocated (c : CtxId) (k : RecordKind) (key : Key) (n : Nat) (s : State) : State :=
  unqueued c k ((s.setEntry k n (.filling key [c])).touch k n)

/-- A fill as a slot takes it up (R84, R85). -/
def freshFill (k : RecordKind) (key : Key) (n : Nat) : Fill :=
  ⟨.requested, k, n, key, List.replicate k.segments none, none, 0, 0, none⟩

/-- A slot's fill failed with waiters (R103): each waiter ended with the code, its reply offered in list order, and let go
of what it held; the entry is EMPTY, or allocated again since; the slot is IDLE at its generation, or has taken up the oldest
fill waiting, or one that the failure set off, at the next; no other context ended or changed hands. -/
structure FillFailed (i : SlotId) (f : Fill) (ws : List CtxId) (code : ResultCode) (s t : State) : Prop where
  freed : ∀ c ∈ ws, t.txn c = none ∧ ∀ x, s.txn c = some x → OnNoList t c ∧ LetGo c x s t
  generations : ∀ c, (t.ctx c).gen = (s.ctx c).gen
  counters : t.dct.counters =
    (ws.filterMap s.txn).foldl (fun counters _ => counters.advance code.outcomeCounter) s.dct.counters
  lanes : t.lanes = ((ws.filterMap s.txn).foldl (fun u x => if x.abandoned then u
    else offerReply x.lane x.drop (replyBody x.request.kindCode x.kioskTag code []) u) s).lanes
  others : ∀ c, c ∉ ws → cardOf t c = cardOf s c
  entry : Vacated t f.kind f.entry
  idle : s.fu.waiting = [] → t.slot i = { s.slot i with fill := none } ∨
    (t.slot i).gen = (s.slot i).gen + 1 ∧
      ∃ k key n owed, (t.slot i).fill = some { freshFill k key n with owed := owed }
  takenUp : ∀ w rest, s.fu.waiting = w :: rest → (t.slot i).gen = (s.slot i).gen + 1 ∧
    ∃ owed, (t.slot i).fill = some { freshFill w.kind w.key w.entry with highest := w.highest, owed := owed }
  commits : t.cu = s.cu
  apart : Apart s t

/-- A notice at the version acts on the entry: VALID or TRANSIENT with the key, at a lower version (R77). -/
def Superseded (s : State) (k : RecordKind) (key : Key) (v : Version) (n : Nat) : Prop :=
  match s.entry k n with
  | .valid copy _ _ | .transient copy _ _ => copy.key = key ∧ copy.version.toNat < v.toNat
  | .empty | .filling .. => False

/-- The copy with its stale flag set and the version noted, the higher of two noted ones (R78, R79). -/
def marked (copy : Copy) (v : Version) : Copy :=
  { copy with stale := some (match copy.stale with
    | some m => if m.toNat < v.toNat then v else m
    | none => v) }

/-- A change notice as FU and RC have noted it for one entry, before anything follows: every fill for the key has the
higher version, and the entry has its stale flag (R78, R79, R97). -/
def noticed (k : RecordKind) (key : Key) (v : Version) (n : Nat) (s : State) : State :=
  let highest := fun (kind : RecordKind) (key' : Key) (seen : Version) =>
    if kind = k ∧ key' = key ∧ seen.toNat < v.toNat then v else seen
  let u : State := { s with fu := {
    slots := s.fu.slots.map fun y =>
      { y with fill := y.fill.map fun f => { f with highest := highest f.kind f.key f.highest } }
    waiting := s.fu.waiting.map fun w => { w with highest := highest w.kind w.key w.highest } } }
  u.setEntry k n (match s.entry k n with
    | .valid copy o ws => .valid (marked copy v) o ws
    | .transient copy tainted o => .transient (marked copy v) tainted o
    | e => e)

/-- The record kinds before one in the order patron, title, item (R49, R50). -/
def before (k : RecordKind) : List RecordKind := RecordKind.order.takeWhile fun j => decide (j ≠ k)

/-- The context does not need such a record, or it is present (R49). -/
def Present (x : Txn) (k : RecordKind) : Prop := ∀ m, x.need k = some m → m.ref ≠ none

/-- The context does not need such a record, or holds its lock or owns it (R50). -/
def Locked (x : Txn) (k : RecordKind) : Prop := ∀ m, x.need k = some m → m.ref ≠ none ∧ m.held = true

/-- The context can use the copy through its reference: a VALID entry that still holds the key, or a TRANSIENT entry it
owns (R68). -/
def Good (s : State) (c : CtxId) (k : RecordKind) (key : Key) (n : Nat) (copy : Copy) : Prop :=
  (copy.key = key ∧ ∃ o ws, s.entry k n = .valid copy o ws) ∨ ∃ tainted, s.entry k n = .transient copy tainted c

/-- The title need an item image gives a RENEW of the patron: its title while the item shows a loan to that patron (R48);
a loan with title number 0 gives none (R142). -/
def titleNeed (item : Image) (patron : Key) : Option Need :=
  if loanPresent item = true ∧ borrower item = patron ∧ itemTitle item ≠ 0
  then some ⟨itemTitle item, none, false⟩ else none

/-- The context has entered DECIDE: the county day is sampled, and it stands on AU's list (R51, R136). -/
structure Decides (c : CtxId) (x : Txn) (s t : State) : Prop where
  txn : t.txn c = some { x with state := .decide, day := some s.um.day, ruleWait := none }
  list : t.au.list = if c ∈ s.au.list then s.au.list else s.au.list ++ [c]
  entries : ∀ k n, t.entry k n = s.entry k n
  others : ∀ d, d ≠ c → t.txn d = s.txn d

/-- The state with one block under a new operation: the store BUSY, the block INCOMPLETE, its entries as they were. -/
def operating (s : State) (b : BlockId) (o : Operation) : State :=
  { s with rs := { s.rs with
      blocks := s.rs.blocks.set b { s.rs.block b with content := .incomplete }
      operation := some o } }

/-- The unit is idle: no busy context, no fill outstanding or waiting (R61, R104, R189). -/
def Idle (s : State) : Prop :=
  (∀ c, s.txn c = none) ∧ (∀ i, (s.slot i).fill = none) ∧ s.fu.waiting = []

/-! ## Invariants -/

/-- At most 19 RELAY_UP frames are held for the line (R34). -/
def RelayShare (s : State) : Prop := s.bli.relaysHeld ≤ 19

/-- Every lane's reply queue holds at most 16 replies, each of 2 to 62 characters (R20, R21). -/
def ReplyQueues (s : State) : Prop :=
  ∀ i : LaneId, (s.lane i).replies.length ≤ 16 ∧
    ∀ r ∈ (s.lane i).replies, 2 ≤ r.body.length ∧ r.body.length ≤ 62

/-- Is the frame a FETCH of a slot? -/
def isFetchOf (i : SlotId) : Frame → Bool
  | .fetch j .. => decide (j = i)
  | _ => false

/-- Is the frame an UPDATE of a context? -/
def isUpdateOf (c : CtxId) : Frame → Bool
  | .update d .. => decide (d = c)
  | _ => false

/-- Is the frame a MGMT_REPLY? -/
def isMgmtReply : Frame → Bool
  | .mgmtReply .. => true
  | _ => false

/-- Is the frame a UNIT_STARTED? -/
def isUnitStarted : Frame → Bool
  | .unitStarted _ => true
  | _ => false

/-- The share of each frame kind in the frames held for the line, as the sending blocks keep it (R34, R35, R86, R109,
R185): a slot, a context and UM have exactly one frame there while their mark is set, and none while it is clear. A frame
that CU still owes to the line for a context is an UPDATE of that context.
The transmitter is idle only with the queue empty, or before it has started the UNIT_STARTED of a reset. -/
structure LineShares (s : State) : Prop where
  relays : s.bli.relaysHeld ≤ 19
  fetches : ∀ i : SlotId, s.bli.held.countP (isFetchOf i) = if (s.slot i).onLine then 1 else 0
  updates : ∀ c : CtxId, s.bli.held.countP (isUpdateOf c) = if (s.commitRec c).onLine then 1 else 0
  replies : s.bli.held.countP isMgmtReply = if s.um.replyOnLine then 1 else 0
  started : s.bli.held.countP isUnitStarted ≤ 1
  owed : ∀ (c : CtxId) (f : Frame), (s.commitRec c).owed = some f → isUpdateOf c f = true
  idle : s.bli.transmitting = none → s.bli.txQueue = [] ∨ ∃ cause, s.bli.txQueue = [.unitStarted cause]

/-- The transmitter's position lies within the frame in transmission, and is 0 with none (R24, R25). -/
def TransmitterShape (s : State) : Prop :=
  match s.bli.transmitting with
  | some f => s.bli.sent ≤ (f.line s.bli.unitNumber).length
  | none => s.bli.sent = 0

/-- At most 2 contexts of one drop are busy, and two of them have different kiosk tags (R43, R47, R61). -/
def InFlight (s : State) : Prop :=
  ∀ (i : LaneId) (d : DropId), (flying s i d).length ≤ 2 ∧ ((flying s i d).map Txn.kioskTag).Nodup

/-- The entries of the fills in the slots and on the fill waiting list. -/
def fillPlaces (s : State) : List (RecordKind × Nat) :=
  allSlots.filterMap (fun i => (s.slot i).fill.map fun f => (f.kind, f.entry)) ++
    s.fu.waiting.map fun w => (w.kind, w.entry)

/-- For any key of a kind at most one entry is FILLING or VALID (R105), because each fill has a FILLING entry of its own
(R83, R85), and a QUIESCED unit, whose cache may be flushed, is idle (R189). -/
structure KeysOnce (s : State) : Prop where
  once : ∀ k key n m, HoldsKey s k key n → HoldsKey s k key m → n = m
  slots : ∀ i f, (s.slot i).fill = some f → ∃ ws, s.entry f.kind f.entry = .filling f.key ws
  waiting : ∀ w ∈ s.fu.waiting, ∃ ws, s.entry w.kind w.entry = .filling w.key ws
  apart : (fillPlaces s).Nodup
  quiesced : s.um.service = .quiesced → Idle s

/-- Every pool has its fixed number of entries, each with one place in the order of use (R62, R63, R69). -/
def PoolShape (s : State) : Prop :=
  ∀ k : RecordKind, (s.pool k).entries.length = k.poolSize ∧ (s.pool k).lru.Perm (List.range k.poolSize)

/-- While a store operation runs, its block is INCOMPLETE; every block has its fixed number of entries (R169, R171). -/
def StoreShape (s : State) : Prop :=
  (∀ o, s.rs.operation = some o → (s.rs.block o.block).content = .incomplete) ∧
    ∀ b : BlockId, (s.rs.block b).entries.length = entryCount b

/-- Every wait list of an entry and every allocation queue holds a context at most once (R67, R70). -/
def WaitOnce (s : State) : Prop :=
  ∀ k : RecordKind, (s.pool k).queue.Nodup ∧ ∀ n, match s.entry k n with
    | .filling _ ws | .valid _ _ ws => ws.Nodup
    | .empty | .transient .. => True

/-- A lane's turn and assembly buffer as R1, R2, R3, R11 and R14 have them: no turn outside SERVE or on an idle lane,
which is in SERVE with no drop enrolled; the round counter 0 and no drop visited in STARTING; characters only in the
assembly phase, and there fewer than the whole frame, so never more than 63 at rest. -/
def LaneShape (l : Lane) : Prop :=
  (l.mode ≠ .serve → l.turn = none) ∧
  (l.idle = true → l.mode = .serve ∧ l.turn = none ∧ l.lastVisited = 0 ∧ ∀ d, (l.dropRec d).enrolment = .off) ∧
  (∀ p, l.mode = .starting p → l.round = 0 ∧ l.lastVisited = 0) ∧
  match l.turn with
  | some ⟨d, .assembly⟩ =>
    l.assembly.head? = some (addressChar d) ∧
      (2 ≤ l.assembly.length → bodyLengthOk l.bodyLength = true ∧ l.assembly.length < 2 + l.bodyLength)
  | _ => l.assembly = []

/-- Every lane has that shape. -/
def LaneShapes (s : State) : Prop := ∀ i : LaneId, LaneShape (s.lane i)

/-- The replies in UM's reply list, with those owed for an operation and a QUIESCE, number at most 16 (R184, R185). -/
def RepliesBounded (s : State) : Prop := repliesOwed s ≤ 16

end Sys2Proof.Safety
end

