-- ==== Sys2Proof/WellFormed.lean ====
section
/-! DEFINITION. The well-formed commands. The operands of most commands are of fixed size and take every value; the
checks below are on the lists a frame carries (R27, R195, R196, R200, R202). -/

namespace Sys2Proof

/-- The octets of a bad frame: some octets, with a delimiter at most at their end (R28). -/
def wfErrorOctets (octets : List Octet) : Bool := !octets.isEmpty && octets.dropLast.all (· ≠ 0xA5)

/-- A RELAY_DOWN's body fills the rest of a payload of at most 480 octets (R196). -/
def wfBody (body : List Octet) : Bool := decide (body.length ≤ 478)

/-- A SEGMENT carries 32 data octets (R195). -/
def wfSegmentData (data : List Octet) : Bool := decide (data.length = 32)

/-- A RESULT carries at most three versions (R196). -/
def wfVersions (versions : List Version) : Bool := decide (versions.length ≤ 3)

/-- A TABLE_WRITE's values fill the rest of a payload of at most 480 octets (R196, R201). -/
def wfValues (values : List Octet) : Bool := decide (values.length ≤ 476)

/-- An UNKNOWN_COMMAND's arguments fill the rest of a payload of at most 480 octets (R196). -/
def wfArguments (args : List Octet) : Bool := decide (args.length ≤ 478)

/-- An UNKNOWN_COMMAND's code and arguments are those of no command (R202). -/
def wfUnknown (seq code : Octet) (args : List Octet) : Bool :=
  decide (decodeMgmt 0 seq code args = .unknownCommand seq code args)

/-- A command that can reach the part as it is written. -/
def Instr.wellFormed : Instr → Bool
  | .linkFrameError octets => wfErrorOctets octets
  | .relayDown _ _ body => wfBody body
  | .segment _ _ _ _ _ _ data => wfSegmentData data
  | .result _ _ _ versions => wfVersions versions
  | .tableWrite _ _ _ values => wfValues values
  | .unknownCommand seq code args => wfArguments args && wfUnknown seq code args
  | .resetLine _ | .powerLoss | .setLane .. | .setDrop .. | .breakEnd _ | .gapEnd _ | .turnStart _
  | .laneTransmitEnd _ | .laneCharacter .. | .frameGapTimeout _ | .quietWaitEnd _ | .answerWindowTimeout _
  | .heldCharacterStands _ | .breakReceived _ | .absent _ | .defer .. | .deferDelayEnd _ | .fetchTimeout _
  | .invalidate .. | .commitTimeout _ | .transactionDeadline _ | .transmitFrameEnd | .renew | .pay | .account
  | .hold | .cancel | .suspend | .resume | .setDay .. | .setOverride .. | .quiesce _ | .resumeService _
  | .flushCache _ | .readStatus _ | .readCounters .. | .resetUnit .. | .tableClear .. | .tableClose ..
  | .tableAbort _ | .tableRead .. | .tableStatusClear _ | .clearComplete | .writeComplete | .closeComplete
  | .octetBoundaryFound => true

end Sys2Proof
end

