-- ==== Sys2Proof/Certificates/Slice0/Obligations.lean ====
section
/-! DEFINITION. The statements for the provers, in the order of OBLIGATIONS.json. Each docstring names the sections of
spec/ it rests on, and the log entry where a clause is the model's own choice. -/

open Sys2Proof Sys2Proof.Machine Sys2Proof.Safety

/-! ## The queue of commands -/

/-- A step carries out the command at the front of the queue on the state with the queue's rest: the queue is how
commands reach the model (log entry 28). -/
def Obligations.StepTakesFrontCommand : Prop :=
  ∀ (s : State) (c : Instr) (rest : List Instr), s.pending = c :: rest →
    step s = exec c { s with pending := rest }

/-- Every command completes in every state, and leaves the commands waiting behind it as they were; that an event which
does not apply changes nothing is the model's choice (log entry 10). -/
def Obligations.CommandsCompleteAndKeepQueue : Prop :=
  ∀ (c : Instr) (s : State), ∃ t, exec c s = .next t ∧ t.pending = s.pending

/-! ## Reset and power (1.1, 2.1, 2.8, 3.3, 4.1, 5.1, 6.1, 10.2, 10.5, 11.1, 11.8) -/

/-- RESET_LINE leaves every block at the value its chapter states for reset, the rule store's blocks kept; that
UNIT_STARTED still stands in the queue, and is taken up at the next event of the transmitter, is the model's choice (log
entry 7), and so is that the receiver holds no bits (log entry 39). -/
def Obligations.ResetLineGivesResetState : Prop :=
  ∀ (straps : BitVec 6) (s : State), ∃ t : State, exec (.resetLine straps) s = .next t ∧
    t.powered = true ∧ t.pending = s.pending ∧
    (∀ i : LaneId, (t.lane i).mode = .isolated ∧ (t.lane i).rate = 2 ∧ (t.lane i).round = 0 ∧
      (∀ d : DropId, (t.lane i).dropRec d = ⟨.off, .present, 0⟩) ∧ (t.lane i).turn = none ∧
      (t.lane i).assembly = [] ∧ (t.lane i).replies = [] ∧
      (t.lane i).counters.toList = List.replicate 8 0) ∧
    t.bli.phase = .hunt ∧ t.bli.bits = [] ∧ t.bli.assembly = [] ∧ t.bli.escape = false ∧
    t.bli.txQueue = [.unitStarted .line] ∧ t.bli.transmitting = none ∧ t.bli.sent = 0 ∧
    t.bli.unitNumber = (if straps = 0 then 63 else straps) ∧ t.bli.counters.toList = List.replicate 6 0 ∧
    (∀ c : CtxId, t.ctx c = ⟨0, none⟩) ∧ t.dct.counters.toList = List.replicate 6 0 ∧
    (∀ (k : RecordKind) (n : Nat), t.entry k n = .empty) ∧
    (∀ k : RecordKind, (t.pool k).entries.length = k.poolSize ∧ (t.pool k).lru = List.range k.poolSize ∧
      (t.pool k).queue = []) ∧
    (∀ i : SlotId, t.slot i = ⟨0, none, false⟩) ∧ t.fu.waiting = [] ∧
    (∀ c : CtxId, t.commitRec c = ⟨false, false, none⟩) ∧ t.au = ⟨[], []⟩ ∧
    t.rs = ⟨s.rs.blocks, none, false, false⟩ ∧
    t.um = ⟨0, .normal, .localKinds, none, .line, [], false⟩

/-- RESET_UNIT has the effect of RESET_LINE but for the receiver phase and the reset cause; a loss of power keeps the
store's blocks through the reset that follows, a block under operation staying INCOMPLETE; the straps as an operand and
the state held while power is away are the model's choice (log entries 32 and 5). -/
def Obligations.ResetUnitAndPowerLoss : Prop :=
  (∀ (s : State) (seq : Octet) (straps : BitVec 6), Manageable s →
    ∃ t : State, exec (.resetLine straps) s = .next t ∧
      exec (.resetUnit seq straps) s = .next { t with
        bli := { t.bli with phase := .frame, txQueue := [.unitStarted .command] }
        um := { t.um with cause := .command } }) ∧
  (∀ (s : State) (straps : BitVec 6), s.powered = true → StoreShape s →
    ∃ t u, exec .powerLoss s = .next t ∧ exec (.resetLine straps) t = .next u ∧
      t.powered = false ∧ u.powered = true ∧ t.rs.blocks = s.rs.blocks ∧
      u.rs = ⟨s.rs.blocks, none, false, false⟩ ∧
      ∀ o, s.rs.operation = some o → (u.rs.block o.block).content = .incomplete)

/-! ## Kiosk lanes: modes, drops, rounds (1.2-1.5, 11.3) -/

/-- SET_LANE refused, and the cases of R4 without a lane abort. -/
def Obligations.SetLaneWithoutAbort : Prop :=
  ∀ (s : State) (seq lane mode rate : Octet), Manageable s →
    (4 ≤ lane.toNat ∨ 2 ≤ mode.toNat ∨ 5 ≤ rate.toNat →
      exec (.setLane seq lane mode rate) s = .next (answer seq 0x01 .badValue [] (counted s))) ∧
    ∀ (i : LaneId) (r : Fin 5), lane.toNat = i.val → rate.toNat = r.val →
      ((s.lane i).mode = .isolated → mode = 0 →
        exec (.setLane seq lane mode rate) s =
          .next (answer seq 0x01 .done [] ((counted s).setLane i { s.lane i with rate := r }))) ∧
      ((s.lane i).mode = .isolated → mode = 1 →
        exec (.setLane seq lane mode rate) s =
          .next (answer seq 0x01 .done [] ((counted s).setLane i { s.lane i with
            rate := r, mode := .starting .breaking, round := 0, turn := none, lastVisited := 0, idle := false,
            held := .none }))) ∧
      ((s.lane i).mode ≠ .isolated → mode = 1 → (s.lane i).rate = r →
        exec (.setLane seq lane mode rate) s = .next (answer seq 0x01 .done [] (counted s)))

/-- The cases of R4 with a lane abort: the lane is cut off and takes its new mode and rate, its drop records and
counters are kept, the other lanes are untouched, and DCT aborts the lane's transactions, which let go of all they hold and
leave every list (R5, R59, R73, R76). That the command's own reply comes after all this, and after what it sets off in other
contexts, is the model's choice (log entry 43). -/
def Obligations.SetLaneAborts : Prop :=
  ∀ (s : State) (seq lane mode rate : Octet) (i : LaneId) (r : Fin 5), Manageable s →
    lane.toNat = i.val → rate.toNat = r.val → (s.lane i).mode ≠ .isolated →
    mode = 0 ∨ (mode = 1 ∧ (s.lane i).rate ≠ r) →
    ∃ t : State, exec (.setLane seq lane mode rate) s = .next (answer seq 0x01 .done [] t) ∧
      t.lane i = { s.lane i with
        mode := if mode = 0 then .isolated else .starting .breaking
        rate := r
        round := if mode = 0 then (s.lane i).round else 0
        turn := none, lastVisited := 0, idle := false, held := .none, assembly := [], replies := [] } ∧
      (∀ j : LaneId, j ≠ i → t.lane j = s.lane j) ∧
      Aborted (fun x => x.lane = i) (counted s) t

/-- SET_DROP refused, without effect, and between enrolments that abort nothing; on an idle lane, which has no
drop enrolled (the invariant of LaneBoundsKept), a newly enrolled drop begins a round at once and is visited in it, or, while
ABSENT, in the round with counter 0 (R10, R11; the turn's moment is the model's choice, log entry 12). -/
def Obligations.SetDropWithoutAbort : Prop :=
  ∀ (s : State) (seq lane drop enrolment : Octet), Manageable s →
    (4 ≤ lane.toNat ∨ drop.toNat = 0 ∨ 9 ≤ drop.toNat ∨ 3 ≤ enrolment.toNat →
      exec (.setDrop seq lane drop enrolment) s = .next (answer seq 0x02 .badValue [] (counted s))) ∧
    ∀ (i : LaneId) (d : DropId) (e : Enrolment), lane.toNat = i.val → drop.toNat = d.val + 1 →
      (enrolment = 0 ∧ e = .off ∨ enrolment = 1 ∧ e = .served ∨ enrolment = 2 ∧ e = .relayed) →
      (((s.lane i).dropRec d).enrolment = e →
        exec (.setDrop seq lane drop enrolment) s = .next (answer seq 0x02 .done [] (counted s))) ∧
      (((s.lane i).dropRec d).enrolment ≠ e → e ≠ .off → (s.lane i).idle = false →
        exec (.setDrop seq lane drop enrolment) s =
          .next (answer seq 0x02 .done [] ((counted s).setLane i
            ((s.lane i).setDropRec d { (s.lane i).dropRec d with enrolment := e })))) ∧
      (((s.lane i).dropRec d).enrolment = .off → e ≠ .off → (s.lane i).idle = true →
        (s.lane i).lastVisited = 0 → (∀ d', ((s.lane i).dropRec d').enrolment = .off) →
        let l := (s.lane i).setDropRec d { (s.lane i).dropRec d with enrolment := e }
        (((s.lane i).dropRec d).presence = .present ∨ (s.lane i).round = 0 →
          exec (.setDrop seq lane drop enrolment) s =
            .next (answer seq 0x02 .done [] ((counted s).setLane i (visiting l d)))) ∧
        (((s.lane i).dropRec d).presence = .absent →
          exec (.setDrop seq lane drop enrolment) s =
            .next (answer seq 0x02 .done [] ((counted s).setLane i (visiting { l with round := 0 } d)))))

/-- SET_DROP to OFF: the drop's replies are removed, its transactions aborted, which let go of all they hold and leave every
list, the rest of the lane and the other lanes untouched (R10, R59, R73, R76). That the command's own reply comes after what
the abort sets off in other contexts is the model's choice (log entry 43). -/
def Obligations.SetDropOffAborts : Prop :=
  ∀ (s : State) (seq lane drop : Octet) (i : LaneId) (d : DropId), Manageable s →
    lane.toNat = i.val → drop.toNat = d.val + 1 → ((s.lane i).dropRec d).enrolment ≠ .off →
    ∃ t : State, exec (.setDrop seq lane drop 0) s = .next (answer seq 0x02 .done [] t) ∧
      t.lane i = { (s.lane i).setDropRec d { (s.lane i).dropRec d with enrolment := .off } with
        replies := (s.lane i).replies.filter fun r => decide (r.drop ≠ d) } ∧
      (∀ j : LaneId, j ≠ i → t.lane j = s.lane j) ∧
      Aborted (fun x => x.lane = i ∧ x.drop = d) (counted s) t

/-- BREAK_END and GAP_END: the break gives way to the gap, and the gap to SERVE with the first turn of round 0, for the
lowest-numbered enrolled drop, or to an idle lane (R3, R11, R12). The pins: LDE is asserted for the break of STARTING and for
the transmission of a turn alone, and LTX is held low for that break alone (R2, R3, R7). -/
def Obligations.BreakThenGapThenServe : Prop :=
  (∀ l : Lane,
    (l.mode = .isolated → l.lde = false ∧ l.ltxHeldLow = false) ∧
    (l.mode = .starting .breaking → l.lde = true ∧ l.ltxHeldLow = true) ∧
    (l.mode = .starting .gap → l.lde = false ∧ l.ltxHeldLow = false) ∧
    (l.mode = .serve → l.ltxHeldLow = false ∧ (l.lde = true ↔ ∃ d cs, l.turn = some ⟨d, .transmitting cs⟩))) ∧
  ∀ (s : State) (i : LaneId), s.powered = true →
    ((s.lane i).mode = .starting .breaking →
      exec (.breakEnd i) s = .next (s.setLane i { s.lane i with mode := .starting .gap })) ∧
    ((s.lane i).mode = .starting .gap → (s.lane i).round = 0 → (s.lane i).lastVisited = 0 →
      (∀ d : DropId, ((s.lane i).dropRec d).enrolment ≠ .off →
        (∀ d' : DropId, d' < d → ((s.lane i).dropRec d').enrolment = .off) →
        exec (.gapEnd i) s = .next (s.setLane i (visiting { s.lane i with mode := .serve } d))) ∧
      ((∀ d : DropId, ((s.lane i).dropRec d).enrolment = .off) →
        exec (.gapEnd i) s =
          .next (s.setLane i { s.lane i with mode := .serve, round := 1, lastVisited := 0, idle := true })))

/-- TURN_START visits the lowest-numbered drop that qualifies, delivering the oldest reply for it; with none, the round
counter advances and the next round visits its lowest-numbered enrolled drop that is PRESENT, or the lowest-numbered
enrolled one in the round with counter 0; with every enrolled drop ABSENT the rounds up to that one visit none; and with no
drop enrolled the lane goes idle (R11, R12). The characters of a turn for drop d: POLL is 0x40 + d; DELIVER is 0x80 + d, then
the length and the body as data characters (R12, R194). -/
def Obligations.TurnVisitsLowestQualifyingDrop : Prop :=
  (∀ d : DropId, turnChars d none = [⟨true, BitVec.ofNat 8 (0x40 + (d.val + 1))⟩] ∧
    ∀ r : Reply, turnChars d (some r) = ⟨true, BitVec.ofNat 8 (0x80 + (d.val + 1))⟩ ::
      ⟨false, BitVec.ofNat 8 r.body.length⟩ :: r.body.map fun o => ⟨false, o⟩) ∧
  ∀ (s : State) (i : LaneId), s.powered = true → (s.lane i).mode = .serve → (s.lane i).turn = none →
    (s.lane i).idle = false →
    (∀ d : DropId, Qualifies (s.lane i) d → (∀ d' : DropId, d' < d → ¬ Qualifies (s.lane i) d') →
      exec (.turnStart i) s = .next (s.setLane i (visiting (s.lane i) d))) ∧
    ((∀ d : DropId, ¬ Qualifies (s.lane i) d) →
      ((∀ d : DropId, ((s.lane i).dropRec d).enrolment = .off) →
        exec (.turnStart i) s =
          .next (s.setLane i { s.lane i with round := (s.lane i).round + 1, lastVisited := 0, idle := true })) ∧
      (∀ d : DropId, (s.lane i).round + 1 ≠ 0 → ((s.lane i).dropRec d).enrolment ≠ .off →
        ((s.lane i).dropRec d).presence = .present →
        (∀ d' : DropId, d' < d → ((s.lane i).dropRec d').enrolment = .off ∨
          ((s.lane i).dropRec d').presence = .absent) →
        exec (.turnStart i) s =
          .next (s.setLane i (visiting { s.lane i with round := (s.lane i).round + 1 } d))) ∧
      (∀ d : DropId, ((s.lane i).dropRec d).enrolment ≠ .off →
        (∀ d' : DropId, d' < d → ((s.lane i).dropRec d').enrolment = .off) →
        (s.lane i).round + 1 = 0 ∨ (∀ d' : DropId, ((s.lane i).dropRec d').enrolment ≠ .off →
          ((s.lane i).dropRec d').presence = .absent) →
        exec (.turnStart i) s = .next (s.setLane i (visiting { s.lane i with round := 0 } d))))

/-- The events that move a running turn on: the end of the transmission opens the answer window; an empty window is a
miss; a gap within a frame truncates it; the quiet wait ends the turn (R12, R13, R15, R16, R17). That neither the window nor
the gap runs out while a character is held is the model's reading (R18, log entry 11). -/
def Obligations.TurnEvents : Prop :=
  ∀ (s : State) (i : LaneId) (d : DropId), s.powered = true → (s.lane i).mode = .serve →
    (∀ cs, (s.lane i).turn = some ⟨d, .transmitting cs⟩ →
      exec (.laneTransmitEnd i) s = .next (s.setLane i { s.lane i with turn := some ⟨d, .window⟩ })) ∧
    ((s.lane i).turn = some ⟨d, .window⟩ → (s.lane i).held = .none →
      let r := (s.lane i).dropRec d
      exec (.answerWindowTimeout i) s = .next (s.setLane i { (s.lane i).setDropRec d { r with
          misses := if r.misses = 3 then 3 else r.misses + 1
          presence := if 2 ≤ r.misses.val then .absent else r.presence } with
        turn := none, counters := (s.lane i).counters.advance .misses })) ∧
    ((s.lane i).held ≠ .none →
      exec (.answerWindowTimeout i) s = .next s ∧ exec (.frameGapTimeout i) s = .next s) ∧
    ((s.lane i).turn = some ⟨d, .assembly⟩ → (s.lane i).held = .none →
      exec (.frameGapTimeout i) s = .next (s.setLane i { s.lane i with
        turn := none, assembly := [], counters := (s.lane i).counters.advance .truncated })) ∧
    ((s.lane i).turn = some ⟨d, .quietWait⟩ →
      exec (.quietWaitEnd i) s = .next (s.setLane i { s.lane i with turn := none }))

/-! ## Kiosk lanes: characters, frames, breaks (1.3, 1.6-1.8) -/

/-- A character sent by R7 is received as itself by R8; one disturbed sample of a bit, whichever of the three, leaves its
value and makes it bad; one inverted data, mark or parity bit makes it bad. The 12 bits, bit 0 first on the line: start 0,
the data least significant bit first, the mark, the parity that makes data, mark and parity even, stop 1 (R7). Whatever the
samples, two of three decide a bit: with a start bit of 1 the edge is a false start, with a stop bit of 0 the verdict is
held, with samples that disagree or odd parity the character is bad, and any other is good with its data and mark (R8,
R18). -/
def Obligations.CharactersAndNoise : Prop :=
  (∀ c : LaneChar, c.samples = ⟨c.bits, c.bits, c.bits⟩ ∧
    c.bits.getLsbD 0 = false ∧ (∀ j, j < 8 → c.bits.getLsbD (1 + j) = c.data.getLsbD j) ∧
    c.bits.getLsbD 9 = c.mark ∧ ((List.range 10).countP fun j => c.bits.getLsbD (1 + j)) % 2 = 0 ∧
    c.bits.getLsbD 11 = true ∧ receive c.samples = .good c ∧
    (∀ m : BitVec 12, m ≠ 0 → ∀ x : Samples,
      x = ⟨c.bits ^^^ m, c.bits, c.bits⟩ ∨ x = ⟨c.bits, c.bits ^^^ m, c.bits⟩ ∨ x = ⟨c.bits, c.bits, c.bits ^^^ m⟩ →
      receive x = .bad ∧ majorityOf x = c.bits) ∧
    (∀ j : Nat, 1 ≤ j → j ≤ 10 →
      receive ⟨c.bits ^^^ (1#12 <<< j), c.bits ^^^ (1#12 <<< j), c.bits ^^^ (1#12 <<< j)⟩ = .bad)) ∧
  ∀ x : Samples,
    let bit := fun j => decide (2 ≤ [x.first, x.second, x.third].countP fun sample => sample.getLsbD j)
    let noise := ∃ j, j < 12 ∧ ¬ (x.first.getLsbD j = x.second.getLsbD j ∧ x.second.getLsbD j = x.third.getLsbD j)
    let odd := ((List.range 10).countP fun j => bit (1 + j)) % 2 = 1
    (∀ j, j < 12 → (majorityOf x).getLsbD j = bit j) ∧
    (receive x = .falseStart ↔ bit 0 = true) ∧ (receive x = .held ↔ bit 0 = false ∧ bit 11 = false) ∧
    (receive x = .bad ↔ bit 0 = false ∧ bit 11 = true ∧ (noise ∨ odd)) ∧
    (bit 0 = false → bit 11 = true → ¬ noise → ¬ odd →
      ∃ c, receive x = .good c ∧ c.mark = bit 9 ∧ ∀ j, j < 8 → c.data.getLsbD j = bit (1 + j))

/-- The characters of a turn: the first of the answer window decides its course and proves the kiosk's presence (R13,
R17); a bad, misplaced or out-of-range character discards the frame (R15); a good one is assembled (R14). A lane that is not
receiving, because it is ISOLATED or STARTING or transmits, ignores every character (R2, R3, R9). The frame address of drop
d is the address character d, and its NIL 0xC0 + d (R13, R194). -/
def Obligations.TurnCharacters : Prop :=
  (∀ d : DropId, addressChar d = ⟨true, BitVec.ofNat 8 (d.val + 1)⟩ ∧
    nilChar d = ⟨true, BitVec.ofNat 8 (0xC0 + (d.val + 1))⟩) ∧
  (∀ (s : State) (i : LaneId) (d : DropId) (x : Samples) (l : Lane), s.powered = true → l = s.lane i →
    l.mode = .serve → l.held = .none →
    (l.turn = some ⟨d, .window⟩ →
      (∀ c, receive x = .good c →
        (c = addressChar d → exec (.laneCharacter i x) s = .next (s.setLane i
          { l.setDropRec d { l.dropRec d with presence := .present, misses := 0 } with
            assembly := [c], turn := some ⟨d, .assembly⟩ })) ∧
        (c = nilChar d → exec (.laneCharacter i x) s = .next (s.setLane i
          { l.setDropRec d { l.dropRec d with presence := .present, misses := 0 } with
            counters := l.counters.advance .nils, turn := none })) ∧
        (c ≠ addressChar d → c ≠ nilChar d → exec (.laneCharacter i x) s = .next (s.setLane i
          { l.setDropRec d { l.dropRec d with presence := .present, misses := 0 } with
            counters := l.counters.advance .addressErrors, assembly := [], turn := some ⟨d, .quietWait⟩ }))) ∧
      (receive x = .bad → exec (.laneCharacter i x) s = .next (s.setLane i
        { l.setDropRec d { l.dropRec d with presence := .present, misses := 0 } with
          counters := l.counters.advance .badCharacters, assembly := [], turn := some ⟨d, .quietWait⟩ })) ∧
      (receive x = .falseStart → exec (.laneCharacter i x) s = .next s)) ∧
    (l.turn = some ⟨d, .assembly⟩ →
      (receive x = .bad → exec (.laneCharacter i x) s = .next (s.setLane i
        { l with counters := l.counters.advance .badCharacters, assembly := [], turn := some ⟨d, .quietWait⟩ })) ∧
      (∀ c, receive x = .good c →
        (c.mark = true → exec (.laneCharacter i x) s = .next (s.setLane i
          { l with counters := l.counters.advance .addressErrors, assembly := [],
                   turn := some ⟨d, .quietWait⟩ })) ∧
        (c.mark = false → l.assembly.length = 1 → 2 ≤ c.data.toNat → c.data.toNat ≤ 62 →
          exec (.laneCharacter i x) s = .next (s.setLane i { l with assembly := l.assembly ++ [c] })) ∧
        (c.mark = false → l.assembly.length = 1 → (c.data.toNat < 2 ∨ 62 < c.data.toNat) →
          exec (.laneCharacter i x) s = .next (s.setLane i
            { l with counters := l.counters.advance .truncated, assembly := [],
                     turn := some ⟨d, .quietWait⟩ })) ∧
        (c.mark = false → 2 ≤ l.assembly.length → l.assembly.length + 1 < 2 + l.bodyLength →
          exec (.laneCharacter i x) s = .next (s.setLane i { l with assembly := l.assembly ++ [c] })))) ∧
    (l.turn = none ∨ l.turn = some ⟨d, .quietWait⟩ →
      ((∃ c, receive x = .good c) ∨ receive x = .bad → exec (.laneCharacter i x) s = .next s))) ∧
  ∀ (s : State) (i : LaneId) (x : Samples),
    (s.lane i).mode ≠ .serve ∨ (∃ d cs, (s.lane i).turn = some ⟨d, .transmitting cs⟩) →
    exec (.laneCharacter i x) s = .next s

/-- The last body character completes the frame and ends the turn: from an enrolled drop it is counted and handed to
dispatch; from a drop turned OFF it is discarded uncounted (R14). -/
def Obligations.FrameCompletes : Prop :=
  ∀ (s : State) (i : LaneId) (d : DropId) (x : Samples) (c : LaneChar) (l : Lane), s.powered = true →
    l = s.lane i → l.mode = .serve → l.held = .none → l.turn = some ⟨d, .assembly⟩ → receive x = .good c →
    c.mark = false → 2 ≤ l.assembly.length → l.assembly.length + 1 = 2 + l.bodyLength →
    ((l.dropRec d).enrolment ≠ .off → exec (.laneCharacter i x) s =
      .next (dispatch i d ((l.assembly.drop 2).map LaneChar.data ++ [c.data]) (s.setLane i
        { l with turn := none, assembly := [], counters := l.counters.advance .framesTaken }))) ∧
    ((l.dropRec d).enrolment = .off →
      exec (.laneCharacter i x) s = .next (s.setLane i { l with turn := none, assembly := [] }))

/-- A character with stop bit 0 is held without effect; if the line rises it stands as a bad character of the phase it
arrived in (R18). That a further character shows the line to have risen, so that the held one stands first, and a false start
does not, is the model's reading (log entry 11). -/
def Obligations.HeldCharacterStandsOrWaits : Prop :=
  ∀ (s : State) (i : LaneId) (l : Lane), s.powered = true → l = s.lane i → l.mode = .serve →
    (∀ x, l.held = .none → receive x = .held →
      ((∃ d, l.turn = some ⟨d, .window⟩ ∨ l.turn = some ⟨d, .assembly⟩) →
        exec (.laneCharacter i x) s = .next (s.setLane i { l with held := .counted })) ∧
      ((l.turn = none ∨ ∃ d, l.turn = some ⟨d, .quietWait⟩) →
        exec (.laneCharacter i x) s = .next (s.setLane i { l with held := .ignored }))) ∧
    (l.held = .counted →
      (∀ d, l.turn = some ⟨d, .window⟩ → exec (.heldCharacterStands i) s = .next (s.setLane i
        { l.setDropRec d { l.dropRec d with presence := .present, misses := 0 } with
          held := .none, counters := l.counters.advance .badCharacters, assembly := [],
          turn := some ⟨d, .quietWait⟩ })) ∧
      (∀ d, l.turn = some ⟨d, .assembly⟩ → exec (.heldCharacterStands i) s = .next (s.setLane i
        { l with held := .none, counters := l.counters.advance .badCharacters, assembly := [],
                 turn := some ⟨d, .quietWait⟩ }))) ∧
    (l.held = .ignored → exec (.heldCharacterStands i) s = .next (s.setLane i { l with held := .none })) ∧
    (l.held ≠ .none → (∀ d cs, l.turn ≠ some ⟨d, .transmitting cs⟩) → ∀ x,
      (receive x = .falseStart → exec (.laneCharacter i x) s = .next s) ∧
      (receive x ≠ .falseStart → ∃ t, exec (.heldCharacterStands i) s = .next t ∧
        exec (.laneCharacter i x) s = exec (.laneCharacter i x) t))

/-- A break on a receiving lane is counted, cuts the lane off, aborts its transactions and puts it in STARTING; a held
character is dropped uncounted, the drop records are kept, the other lanes are untouched, and the freed transactions let
go of all they hold and leave every list (R5, R18, R19, R59, R73, R76). A lane that is
not receiving, because it is ISOLATED or STARTING or transmits, detects no break (R2, R3, R9). -/
def Obligations.BreakAbortsLane : Prop :=
  (∀ (s : State) (i : LaneId),
    (s.lane i).mode ≠ .serve ∨ (∃ d cs, (s.lane i).turn = some ⟨d, .transmitting cs⟩) →
    exec (.breakReceived i) s = .next s) ∧
  ∀ (s : State) (i : LaneId), s.powered = true → (s.lane i).mode = .serve →
    (∀ d cs, (s.lane i).turn ≠ some ⟨d, .transmitting cs⟩) →
    ∃ t : State, exec (.breakReceived i) s = .next t ∧
      t.lane i = { s.lane i with
        mode := .starting .breaking, round := 0, turn := none, lastVisited := 0, idle := false, held := .none
        assembly := [], replies := [], counters := (s.lane i).counters.advance .breaks } ∧
      (∀ j : LaneId, j ≠ i → t.lane j = s.lane j) ∧ Aborted (fun x => x.lane = i) s t

/-- The reply queue admits or discards by the first test that applies, whatever the presence and the turn (R20). -/
def Obligations.ReplyAdmission : Prop :=
  ∀ (s : State) (i : LaneId) (d : DropId) (body : List Octet) (l : Lane), l = s.lane i →
    (l.mode = .isolated → offerReply i d body s = s) ∧
    (l.mode ≠ .isolated → (l.dropRec d).enrolment = .off → offerReply i d body s = s) ∧
    (l.mode ≠ .isolated → (l.dropRec d).enrolment ≠ .off →
      (body.length < 2 ∨ 62 < body.length ∨ 16 ≤ l.replies.length →
        offerReply i d body s = s.setLane i { l with counters := l.counters.advance .repliesLost }) ∧
      (2 ≤ body.length → body.length ≤ 62 → l.replies.length < 16 →
        offerReply i d body s = s.setLane i { l with replies := l.replies ++ [⟨d, body⟩] }))

/-! ## The branch link (chapter 2, 12.2) -/

/-- The receiver's treatment of each bit, in HUNT at every bit position and in FRAME every eighth on its boundary (R26),
and of each octet in FRAME, by what it has assembled (R28). A delimiter after a lone escape octet is taken by the row
'escape pending' (log entry 34); that the last bits before the hunt are looked at with its first is log entry 9. -/
def Obligations.ReceiverTable : Prop :=
  (∀ bits : List Bool, bits.length = 8 → ∀ j, j < 8 → (octetOfBits bits).getMsbD j = bits.getD j false) ∧
  (∀ (s : State) (b : Bool),
    (s.bli.bits.length < 7 → receiveBit s b = { s with bli := { s.bli with bits := s.bli.bits ++ [b] } }) ∧
    (s.bli.bits.length = 7 → s.bli.phase = .hunt →
      (octetOfBits (s.bli.bits ++ [b]) = 0xA5 → receiveBit s b =
        { s with bli := { s.bli with phase := .frame, bits := [], assembly := [], escape := false } }) ∧
      (octetOfBits (s.bli.bits ++ [b]) ≠ 0xA5 → receiveBit s b =
        { s with bli := { s.bli with bits := s.bli.bits.drop 1 ++ [b] } })) ∧
    (s.bli.bits.length = 7 → s.bli.phase = .frame →
      ∀ t, t = receiveOctet { s with bli := { s.bli with bits := [] } } (octetOfBits (s.bli.bits ++ [b])) →
        (t.bli.phase = .frame → receiveBit s b = t) ∧
        (t.bli.phase = .hunt → receiveBit s b =
          { t with bli := { t.bli with bits := s.bli.bits.drop 1 ++ [b] } }))) ∧
  ∀ (s : State) (o : Octet), s.bli.phase = .frame → s.bli.assembly.length ≤ 488 →
    (o = 0xA5 → s.bli.escape = false → s.bli.assembly = [] → receiveOctet s o = s) ∧
    (o = 0xA5 → (s.bli.escape = true ∨ 1 ≤ s.bli.assembly.length ∧ s.bli.assembly.length ≤ 7) →
      receiveOctet s o = { s with bli := { s.bli with
        assembly := [], escape := false, counters := s.bli.counters.advance .crcLength } }) ∧
    (o = 0xA5 → s.bli.escape = false → 8 ≤ s.bli.assembly.length →
      receiveOctet s o = checkFrame s.bli.assembly { s with bli := { s.bli with assembly := [] } }) ∧
    (o = 0xA6 → s.bli.escape = false → receiveOctet s o = { s with bli := { s.bli with escape := true } }) ∧
    (∀ v : Octet, (s.bli.escape = true ∧ (o = 0xE5 ∧ v = 0xA5 ∨ o = 0xE6 ∧ v = 0xA6) ∨
        s.bli.escape = false ∧ o ≠ 0xA5 ∧ o ≠ 0xA6 ∧ v = o) →
      (s.bli.assembly.length < 488 → receiveOctet s o =
        { s with bli := { s.bli with assembly := s.bli.assembly ++ [v], escape := false } }) ∧
      (s.bli.assembly.length = 488 → receiveOctet s o = { s with bli := { s.bli with
        phase := .hunt, assembly := [], escape := false, counters := s.bli.counters.advance .crcLength } })) ∧
    (s.bli.escape = true → o ≠ 0xA5 → o ≠ 0xE5 → o ≠ 0xE6 → receiveOctet s o = { s with bli := { s.bli with
      phase := .hunt, assembly := [], escape := false, counters := s.bli.counters.advance .crcLength } })

/-- A well-formed frame, sent in the layout of R195 with its check sequence and escapes (R27, R29) and taken octet by
octet (R28), does exactly what its command does: envelope, escapes, check sequence, payload layouts and command codes
agree between sender and receiver for all the commands that arrive as frames (R29, R195, R201). The envelope's octets, the
escapes and the check register, which takes each octet most significant bit first and which the content with its check
sequence leaves at 0, are as R27, R29 and R195 give them, and so are the payloads of the kinds that arrive. That a command
brings its opening delimiter, and that a frame spelled octet by octet is its command, is the model's choice (log entries 6
and 33), and so is what the octets of a frame do behind another boundary of the receiver (R26, log entry 6). -/
def Obligations.FramesOnTheLineAreTheirCommands : Prop :=
  (∀ (s : State) (c : Instr) (kind : Octet) (tag : Tag) (payload : List Octet),
    encodeFrame c = some (kind, tag, payload) →
    let octets := escaped (contentOf kind (s.bli.unitNumber.setWidth 8) tag payload) ++ [0xA5]
    (Listening s → c.wellFormed = true → (∀ seq straps, c = .resetUnit seq straps → straps = s.bli.unitNumber) →
      exec (.linkFrameError octets) s = exec c s) ∧
    (s.powered = true → (receiveLine s 0xA5).bli.phase = .hunt ∨ (receiveLine s 0xA5).bli.bits ≠ [] →
      exec c s = exec (.linkFrameError octets) s)) ∧
  (∀ (kind unit : Octet) (tag : Tag) (payload : List Octet),
    let body := [kind, unit] ++ octetsOf 2 tag ++ octetsOf 2 (BitVec.ofNat 16 payload.length) ++ payload
    contentOf kind unit tag payload = body ++ octetsOf 2 (crc body) ∧ crc (contentOf kind unit tag payload) = 0) ∧
  (∀ os : List Octet, crc os = (os.flatMap octetBits).foldl checkBit 0xFFFF ∧
    escaped os = os.flatMap fun o => if o = 0xA5 then [0xA6, 0xE5] else if o = 0xA6 then [0xA6, 0xE6] else [o]) ∧
  (∀ o : Octet, (octetBits o).length = 8 ∧ ∀ j, j < 8 → (octetBits o).getD j false = o.getMsbD j) ∧
  ∀ (tag : Tag) (kind index flags code attempt outcome : Octet) (key : Key) (v : Version) (versions : List Version)
    (lane drop : Octet) (data body : List Octet),
    encodeFrame (.relayDown lane drop body) = some (0x20, 0, lane :: drop :: body) ∧
    encodeFrame (.segment tag kind key v index flags data) =
      some (0x21, tag, [kind] ++ octetsOf 4 key ++ octetsOf 4 v ++ [index, flags] ++ data) ∧
    encodeFrame (.absent tag) = some (0x22, tag, []) ∧ encodeFrame (.defer tag code) = some (0x23, tag, [code]) ∧
    encodeFrame (.invalidate kind key v) = some (0x24, 0, [kind] ++ octetsOf 4 key ++ octetsOf 4 v) ∧
    encodeFrame (.result tag attempt outcome versions) =
      some (0x25, tag, [attempt, outcome] ++ versions.flatMap (octetsOf 4)) ∧
    ∀ (seq a b c : Octet) (day : Day) (values : List Octet) (straps : BitVec 6),
      let mgmt := fun (i : Instr) (octets : List Octet) => encodeFrame i = some (0x26, 0, seq :: octets)
      mgmt (.setLane seq a b c) [0x01, a, b, c] ∧ mgmt (.setDrop seq a b c) [0x02, a, b, c] ∧
      mgmt (.setDay seq day) (0x03 :: octetsOf 2 day) ∧ mgmt (.setOverride seq a) [0x04, a] ∧
      mgmt (.quiesce seq) [0x05] ∧ mgmt (.resumeService seq) [0x06] ∧ mgmt (.flushCache seq) [0x07] ∧
      mgmt (.readStatus seq) [0x08] ∧ mgmt (.readCounters seq a) [0x09, a] ∧ mgmt (.resetUnit seq straps) [0x0A] ∧
      mgmt (.tableClear seq a) [0x0B, a] ∧ mgmt (.tableWrite seq a b values) ([0x0C, a, b] ++ values) ∧
      mgmt (.tableClose seq a) [0x0D, a] ∧ mgmt (.tableAbort seq) [0x0E] ∧ mgmt (.tableRead seq a b) [0x0F, a, b] ∧
      mgmt (.tableStatusClear seq) [0x10] ∧ mgmt (.unknownCommand seq code values) (code :: values)

/-- A frame that fails a check of R29 is discarded and advances exactly the counter of the first test it fails, test 5 by
the payload lengths of R196; an
escape fault discards it too and sends the receiver to HUNT; from HUNT the next boundary leads back to FRAME; a frame's
octets, its opening delimiter before them, are taken bit by bit whatever the receiver's phase and boundary (R26, R28, R29,
R39, R196). That the opening delimiter comes with the command is the model's choice (log entry 6), as are the bits kept for the
hunt (log entry 9). -/
def Obligations.BadFramesAreCounted : Prop :=
  (∀ (s : State) (kind unit : Octet) (tag : Tag) (payload : List Octet), Listening s → payload.length ≤ 480 →
    (unit ≠ s.bli.unitNumber.setWidth 8 →
      exec (.linkFrameError (escaped (contentOf kind unit tag payload) ++ [0xA5])) s =
        .next ((heard s).countLink .wrongUnit)) ∧
    (unit = s.bli.unitNumber.setWidth 8 → (kind.toNat < 0x20 ∨ 0x26 < kind.toNat) →
      exec (.linkFrameError (escaped (contentOf kind unit tag payload) ++ [0xA5])) s =
        .next ((heard s).countLink .unknownKind)) ∧
    (unit = s.bli.unitNumber.setWidth 8 → 0x20 ≤ kind.toNat → kind.toNat ≤ 0x26 →
      ¬ (kind = 0x20 ∧ 2 ≤ payload.length ∨ kind = 0x21 ∧ payload.length = 43 ∨ kind = 0x22 ∧ payload.length = 0 ∨
        kind = 0x23 ∧ payload.length = 1 ∨ kind = 0x24 ∧ payload.length = 9 ∨
        kind = 0x25 ∧ payload.length ∈ [2, 6, 10, 14] ∨ kind = 0x26 ∧ 2 ≤ payload.length) →
      exec (.linkFrameError (escaped (contentOf kind unit tag payload) ++ [0xA5])) s = .next (miscounted s))) ∧
  (∀ (s : State) (content : List Octet), Listening s → 8 ≤ content.length → content.length ≤ 488 →
    (content.length ≠ natAt content 4 2 + 8 ∨
      crc (content.take (content.length - 2)) ≠ BitVec.ofNat 16 (natAt content (content.length - 2) 2)) →
    exec (.linkFrameError (escaped content ++ [0xA5])) s = .next (miscounted s)) ∧
  (∀ (s : State) (content : List Octet) (o : Octet), Listening s → content.length < 488 → o ≠ 0xA5 → o ≠ 0xE5 →
    o ≠ 0xE6 → exec (.linkFrameError (escaped content ++ [0xA6, o])) s =
      .next { miscounted s with bli := { (miscounted s).bli with phase := .hunt, bits := (octetBits o).drop 1 } }) ∧
  (∀ (s : State) (octets : List Octet), s.powered = true → exec (.linkFrameError octets) s =
    .next ((0xA5 :: octets).foldl (fun t o => (octetBits o).foldl receiveBit t) s)) ∧
  (∀ s : State, Listening s → (octetBits 0xA5).foldl receiveBit s = heard s) ∧
  (∀ s : State, s.powered = true →
    (s.bli.phase = .hunt → exec .octetBoundaryFound s =
      .next { s with bli := { s.bli with phase := .frame, bits := [], assembly := [], escape := false } }) ∧
    (s.bli.phase = .frame → exec .octetBoundaryFound s = .next s))

/-- RELAY_DOWN: a bad lane or drop is a late tag; otherwise the body is offered to the lane it names (R37, R32). -/
def Obligations.RelayDownOffersReply : Prop :=
  ∀ (s : State) (lane drop : Octet) (body : List Octet), Listening s → body.length ≤ 478 →
    (4 ≤ lane.toNat ∨ drop.toNat = 0 ∨ 9 ≤ drop.toNat →
      exec (.relayDown lane drop body) s = .next (countedLate s)) ∧
    ∀ (i : LaneId) (d : DropId), lane.toNat = i.val → drop.toNat = d.val + 1 →
      exec (.relayDown lane drop body) s = .next (offerReply i d body (counted s))

/-- A RELAY_UP is admitted at the tail while fewer than 19 are held for the line, else it is discarded and counted, and
nothing else changes; the share holds after it (R34). Any frame sent joins the tail of the frames held for the line, an idle
transmitter taking up the oldest of them from its first octet; the receiver, the unit number and the counters stay (R33;
that an idle transmitter may still have the UNIT_STARTED of a reset to take up is the model's reading, log entry 7). -/
def Obligations.RelayShareAtOffer : Prop :=
  ∀ (s : State) (lane : LaneId) (drop : DropId) (body : List Octet),
    (∀ f, sendFrame f s = { s with bli := lineWith s.bli (s.bli.held ++ [f]) }) ∧
    (s.bli.relaysHeld < 19 →
      offerRelay lane drop body s = { s with bli := lineWith s.bli (s.bli.held ++ [.relayUp lane drop body]) } ∧
      (offerRelay lane drop body s).bli.relaysHeld = s.bli.relaysHeld + 1) ∧
    (19 ≤ s.bli.relaysHeld → offerRelay lane drop body s =
      { s with bli := { s.bli with counters := s.bli.counters.advance .relaysDropped } }) ∧
    (RelayShare s → RelayShare (offerRelay lane drop body s))

/-- TRANSMIT_FRAME_END: the frame leaves the transmitter, the next of the queue is in transmission from its first octet,
the receiver, the unit number and the counters stay, and the frame's sender is told; a transmitter that has not yet taken up
the UNIT_STARTED of a reset ends that frame (log entry 7). A slot's or a context's mark clears unless it offers its owed
frame, UM offers its oldest waiting reply (R33, R86, R109, R185). That the event changes nothing with no frame held for the
line is the model's choice (log entry 10). Between commands an octet time goes by: the position moves on by one octet of the frame, up to its end, and idle fill moves
nothing; BTX carries the octet at the position, most significant bit first, and stands at 1 while RSTN is asserted (R24,
R25; that an octet time passes on an empty queue is the model's choice, log entry 4). The octets on the line of each kind
of frame the part sends: its kind, its tag, its payload and its record kind codes (R27, R36, R38, R195, R197; the revision
is a free value). -/
def Obligations.TransmitEndStartsNextFrame : Prop :=
  (∀ s : State, s.bli.held = [] → exec .transmitFrameEnd s = .next s) ∧
  (∀ (s : State) (f : Frame) (queue : List Frame), s.powered = true → s.bli.held = f :: queue →
    let next := fun (t : State) (held : List Frame) => exec .transmitFrameEnd s =
      .next { t with bli := { s.bli with transmitting := held.head?, txQueue := held.tail, sent := 0 } }
    (f.isRelayUp = true ∨ isUnitStarted f = true → next s queue) ∧
    (∀ i, isFetchOf i f = true → (∀ g, (s.slot i).fill = some g → g.owed = none) →
      next (s.setSlot i { s.slot i with onLine := false }) queue) ∧
    (∀ i g first count, isFetchOf i f = true → (s.slot i).fill = some g → g.owed = some (first, count) →
      next (s.setSlot i { s.slot i with onLine := true, fill := some { g with owed := none } })
        (queue ++ [.fetch i (s.slot i).gen g.kind g.key first count])) ∧
    (∀ c, isUpdateOf c f = true → (s.commitRec c).owed = none →
      next (s.setCommitRec c { s.commitRec c with onLine := false }) queue) ∧
    (∀ c g, isUpdateOf c f = true → (s.commitRec c).owed = some g →
      next (s.setCommitRec c { s.commitRec c with onLine := true, owed := none }) (queue ++ [g])) ∧
    (isMgmtReply f = true → s.um.replies = [] →
      next { s with um := { s.um with replyOnLine := false } } queue) ∧
    (∀ r rs, isMgmtReply f = true → s.um.replies = r :: rs →
      next { s with um := { s.um with replies := rs, replyOnLine := true } }
        (queue ++ [.mgmtReply r.seq r.command r.result r.fields]))) ∧
  (∀ s : State, s.powered = true → s.pending = [] →
    (s.bli.held = [] → step s = .next s) ∧
    ∀ f queue, s.bli.held = f :: queue → step s = .next { s with bli := { lineWith s.bli s.bli.held with
      sent := min ((if s.bli.transmitting.isSome then s.bli.sent else 0) + 1) (f.line s.bli.unitNumber).length } }) ∧
  (∀ (b : Bli) (bit : Fin 8), b.btx true bit = true ∧
    (b.transmitting = none → b.btx false bit = (0xA5 : Octet).getMsbD bit) ∧
    ∀ f o, b.transmitting = some f → (f.line b.unitNumber)[b.sent]? = some o → b.btx false bit = o.getMsbD bit) ∧
  ∀ (unit : BitVec 6) (lane : LaneId) (drop : DropId) (slot : SlotId) (c : CtxId) (gen : Gen) (k : RecordKind)
    (key : Key) (first count attempt : Nat) (entries : List UpdateEntry) (reference : Option (BitVec 64))
    (seq command : Octet) (code : ResultCode) (body fields : List Octet) (cause : ResetCause),
    let number := fun n : Nat => BitVec.ofNat 8 n
    let kindCode := fun k : RecordKind => match k with
      | .patron => number 1
      | .title => number 2
      | .item => number 3
    let entry := fun e : UpdateEntry =>
      let head := [kindCode e.kind] ++ octetsOf 4 e.key ++ octetsOf 4 e.version
      match e.image, reference with
      | none, _ => number 2 :: head
      | some image, none => number 1 :: head ++ image
      | some image, some r => number 3 :: head ++ image ++ octetsOf 8 r
    (Frame.relayUp lane drop body).line unit =
      onLine unit 0x10 0 ([number lane.val, number (drop.val + 1)] ++ body) ∧
    (Frame.fetch slot gen k key first count).line unit = onLine unit 0x11
      (BitVec.ofNat 16 (slot.val * 4096 + gen.toNat)) ([kindCode k] ++ octetsOf 4 key ++ [number first, number count]) ∧
    (Frame.update c gen attempt entries reference).line unit = onLine unit 0x12
      (BitVec.ofNat 16 (c.val * 4096 + gen.toNat)) ([number attempt, number entries.length] ++ entries.flatMap entry) ∧
    (Frame.mgmtReply seq command code fields).line unit = onLine unit 0x13 0 ([seq, command, code.code] ++ fields) ∧
    (Frame.unitStarted cause).line unit = onLine unit 0x14 0
      [match cause with
        | .line => 1
        | .command => 2, 0x42, 0x08, Config.revision]

/-! ## Dispatch and contexts (chapter 3) -/

/-- Dispatch relays, refuses OFFLINE, refuses by the first acceptance check that fails, or accepts into the lowest FREE
context at its next generation, with the needs of its kind, each without a reference, and the context then starts to gather
(R40-R45, R47, R48). The lookups by which an accepted context gathers: a VALID entry with the key
is named and becomes most recent; a FILLING one takes the context at its tail; else the lowest EMPTY entry, or the least
recent that can be evicted, becomes FILLING with the context as first waiter, and the lowest IDLE slot asks for it at its
next generation or it joins the fill waiting list; without room the context joins the pool's allocation queue, which is
looked up again, oldest first, when the pool frees room (R64-R67, R85). -/
def Obligations.DispatchTreatsFrames : Prop :=
  (∀ (s : State) (i : LaneId) (d : DropId) (kind tag : Octet) (payload : List Octet) (e : Enrolment),
    e = ((s.lane i).dropRec d).enrolment →
    let body := kind :: tag :: payload
    let refuse := fun code => offerReply i d [kind, tag, code] s
    (e = .relayed → dispatch i d body s = offerRelay i d body s) ∧
    (e = .served → (kind.toNat = 0 ∨ 8 ≤ kind.toNat) → dispatch i d body s = offerRelay i d body s) ∧
    (e = .served → 1 ≤ kind.toNat → kind.toNat ≤ 7 →
      (s.um.override = .relayAll → dispatch i d body s = offerRelay i d body s) ∧
      (s.um.override = .refuseAll → dispatch i d body s = refuse 0x13) ∧
      (s.um.override = .localKinds →
        (s.um.day = 0 → dispatch i d body s = refuse 0x10) ∧
        (s.um.day ≠ 0 → s.um.service ≠ .normal → dispatch i d body s = refuse 0x11) ∧
        (s.um.day ≠ 0 → s.um.service = .normal →
          (Request.parse kind payload = none → dispatch i d body s = refuse 0x12) ∧
          ∀ req, Request.parse kind payload = some req →
            (2 ≤ (flying s i d).length → dispatch i d body s = refuse 0x11) ∧
            ((flying s i d).length < 2 → (∃ x ∈ flying s i d, x.kioskTag = tag) →
              dispatch i d body s = refuse 0x12) ∧
            ((flying s i d).length < 2 → (∀ x ∈ flying s i d, x.kioskTag ≠ tag) →
              ((∀ c, s.txn c ≠ none) → dispatch i d body s = refuse 0x11) ∧
              ∀ c, LowestFree s c → ∃ t, dispatch i d body s = t ∧
                t = settle ((s.setCtx c ⟨(s.ctx c).gen + 1, some (accepted i d tag req)⟩).countTxn .accepted,
                  [.resume c]) ∧
                (t.ctx c).gen = (s.ctx c).gen + 1 ∧
                cardOf t c = some ⟨i, d, tag, req, .running, 0, false, none, false⟩ ∧
                (∀ c', c' ≠ c → cardOf t c' = cardOf s c') ∧
                t.dct.counters = s.dct.counters.advance .accepted ∧ t.lanes = s.lanes ∧ t.rs = s.rs))))) ∧
  ∀ (s : State) (c : CtxId) (k : RecordKind) (key : Key),
    (∀ n, HoldsKey s k key n → (∀ m, HoldsKey s k key m → m = n) →
      (∀ copy o ws, s.entry k n = .valid copy o ws → lookup c k key s = (unqueued c k (s.touch k n), some n)) ∧
      (∀ ws, s.entry k n = .filling key ws → lookup c k key s =
        (unqueued c k (s.setEntry k n (.filling key (if c ∈ ws then ws else ws ++ [c]))), none))) ∧
    ((∀ n, ¬ HoldsKey s k key n) →
      (∀ n, Takes s k n →
        (∀ i, (s.slot i).fill = none → (∀ j, j < i → (s.slot j).fill ≠ none) → lookup c k key s =
          (asking i ((s.slot i).gen + 1) (freshFill k key n) 0 k.segments (allocated c k key n s), none)) ∧
        ((∀ i, (s.slot i).fill ≠ none) → lookup c k key s = ({ allocated c k key n s with
          fu := { s.fu with waiting := s.fu.waiting ++ [⟨k, n, key, 0⟩] } }, none))) ∧
      ((∀ n, ¬ Takes s k n) → lookup c k key s = (s.setPool k { s.pool k with
        queue := if c ∈ (s.pool k).queue then (s.pool k).queue else (s.pool k).queue ++ [c] }, none))) ∧
    (∀ n, n ∈ (s.pool k).lru → ((s.touch k n).pool k).lru = (s.pool k).lru.erase n ++ [n]) ∧
    doTask (.retry k) s = (s, (s.pool k).queue.map .resume)

/-- The payloads that pass check 3: each kind's length, its keys nonzero, and what the request then names (R44). -/
def Obligations.RequestsParse : Prop :=
  ∀ (a b : Key) (x : Octet) (day : Day) (amount : BitVec 32) (reference : BitVec 64),
    let p := beOctets 4 a.toNat
    let q := beOctets 4 b.toNat
    (a ≠ 0 → b ≠ 0 →
      Request.parse 1 (p ++ q) = some (.renew a b) ∧
      Request.parse 2 (p ++ q ++ [x]) = some (.hold a b x) ∧
      Request.parse 3 (p ++ q) = some (.cancel a b) ∧
      Request.parse 4 (p ++ q ++ beOctets 2 day.toNat) = some (.suspend a b day) ∧
      Request.parse 5 (p ++ q) = some (.resume a b)) ∧
    (a ≠ 0 → Request.parse 6 (p ++ beOctets 4 amount.toNat ++ beOctets 8 reference.toNat) =
        some (.pay a amount reference) ∧ Request.parse 7 p = some (.account a)) ∧
    (a = 0 → Request.parse 6 (p ++ beOctets 4 amount.toNat ++ beOctets 8 reference.toNat) = none ∧
      Request.parse 7 p = none) ∧
    (a = 0 ∨ b = 0 → Request.parse 1 (p ++ q) = none ∧ Request.parse 2 (p ++ q ++ [x]) = none ∧
      Request.parse 3 (p ++ q) = none ∧ Request.parse 4 (p ++ q ++ beOctets 2 day.toNat) = none ∧
      Request.parse 5 (p ++ q) = none) ∧
    (∀ (kind : Octet) (payload : List Octet),
      payload.length ≠ (if kind = 2 then 9 else if kind = 4 then 10 else if kind = 6 then 16
        else if kind = 7 then 4 else 8) → Request.parse kind payload = none)

/-- A context that ends lets go of all it holds, is on no list any more (R57 step 2, R73, R76), offers its reply unless
ABANDONED, advances its outcome's counter, becomes FREE with its generation kept, and ends no other context (R57, R58). The
order of the releases among its pools shows in what follows only (log entry 36). The counters of the outcomes, the octets
of the reply, and the values of the result codes (R57, R58, R194, R203). -/
def Obligations.ContextEnds : Prop :=
  (∀ (c : CtxId) (x : Txn) (code : ResultCode) (fields : List Octet) (s : State), s.txn c = some x →
    Released c x s (endCtx c code fields s) ∧ Ended c x code fields s (settle (endCtx c code fields s))) ∧
  (∀ code : ResultCode,
    (code ∈ [.renewed, .holdPlaced, .holdCancelled, .holdSuspended, .holdResumed, .paid, .accountInfo] →
      code.outcomeCounter = .committed) ∧
    (code ∈ [.timeout, .uplinkBusy, .uplinkTimeout, .retryLater] → code.outcomeCounter = .failed) ∧
    (code ∈ [.badRequest, .unknownPatron, .unknownTitle, .unknownItem, .commitRefused, .notOnLoan, .notYours,
        .cardExpired, .blocked, .noRule, .notRenewable, .limitReached, .heldForOther, .finesFull, .noExtension,
        .nothingOwed, .duplicate, .queueFull, .noSuchHold, .notSuspendable] → code.outcomeCounter = .refused)) ∧
  (∀ (kind tag : Octet) (code : ResultCode) (fields : List Octet),
    replyBody kind tag code fields = [kind, tag, code.code] ++ fields) ∧
  (∀ (p q : Key) (x : Octet) (day : Day) (amount : BitVec 32) (reference : BitVec 64),
    [Request.renew p q, .hold p q x, .cancel p q, .suspend p q day, .resume p q, .pay p amount reference,
      .account p].map Request.kindCode = [0x01, 0x02, 0x03, 0x04, 0x05, 0x06, 0x07]) ∧
  [ResultCode.renewed, .holdPlaced, .holdCancelled, .holdSuspended, .holdResumed, .paid, .accountInfo].map
    ResultCode.code = [0x01, 0x02, 0x03, 0x04, 0x05, 0x06, 0x07] ∧
  [ResultCode.noDate, .busy, .badRequest, .offline, .timeout, .retryLater, .uplinkBusy, .uplinkTimeout, .unknownPatron,
      .unknownTitle, .unknownItem, .commitRefused].map ResultCode.code =
    [0x10, 0x11, 0x12, 0x13, 0x14, 0x15, 0x16, 0x17, 0x18, 0x19, 0x1A, 0x1B] ∧
  [ResultCode.notOnLoan, .notYours, .cardExpired, .blocked, .noRule, .notRenewable, .limitReached, .heldForOther,
      .finesFull, .noExtension, .nothingOwed, .duplicate, .queueFull, .noSuchHold, .notSuspendable].map
    ResultCode.code =
    [0x20, 0x21, 0x22, 0x23, 0x24, 0x25, 0x26, 0x27, 0x28, 0x29, 0x2A, 0x2B, 0x2C, 0x2D, 0x2E] ∧
  [ResultCode.done, .clamped, .badValue, .dayBackward, .notQuiesced, .cancelled, .errorPending, .sequenceError,
      .writeError, .aborted, .nothingToAbort].map ResultCode.code =
    [0x40, 0x41, 0x42, 0x43, 0x44, 0x45, 0x46, 0x47, 0x48, 0x49, 0x4A]

/-- A regather cause: an ABANDONED context is freed without reply or counter, one at the limit ends with RETRY_LATER, one
past its deadline ends with TIMEOUT, and any other goes back to GATHER with its count raised, every entry reference cleared, a
RENEW's title need to be settled again and no day of decision, and starts its lookups afresh (R48, R53); each first lets go of
all it holds and leaves every list (R53, R55, R59, R73, R76). -/
def Obligations.RegatherOrEnd : Prop :=
  (∀ (c : CtxId) (s : State), doTask (.regather c) s = regather c s ∧ doTask (.resume c) s = resumeCtx c s) ∧
  ∀ (c : CtxId) (x : Txn) (s : State), s.txn c = some x → Released c x s (regather c s) ∧
    (x.abandoned = true → (settle (regather c s)).txn c = none ∧
      (settle (regather c s)).dct.counters = s.dct.counters ∧ (settle (regather c s)).lanes = s.lanes) ∧
    (x.abandoned = false → 2 ≤ x.regathers → Ended c x .retryLater [] s (settle (regather c s))) ∧
    (x.abandoned = false → x.regathers < 2 → x.deadline = .passed →
      Ended c x .timeout [] (s.countTxn .regathers) (settle (regather c s))) ∧
    (x.abandoned = false → x.regathers < 2 → x.deadline = .running →
      (regather c s).1.txn c = some { gathering x with regathers := x.regathers + 1 } ∧
      .resume c ∈ (regather c s).2 ∧
      cardOf (settle (regather c s)) c =
        some { card x with regathers := x.regathers + 1, outstanding := none, committing := false } ∧
      (settle (regather c s)).dct.counters = s.dct.counters.advance .regathers ∧
      (settle (regather c s)).lanes = s.lanes ∧
      ∀ d, d ≠ c → cardOf (settle (regather c s)) d = cardOf s d)

/-- TRANSACTION_DEADLINE and COMMIT_TIMEOUT: the deadline ends a context in GATHER or DECIDE with TIMEOUT, which lets go
of its locks and TRANSIENT entries and leaves every list (R57, R73, R76), and is noted in COMMIT; the commit timer marks
every named entry it holds and ends the context with UPLINK_TIMEOUT (R55, R115). The deadline as an event with a mark in
COMMIT is the model's choice (log entry 1), as is that a COMMIT_TIMEOUT with the timer stopped changes nothing (log
entry 10). -/
def Obligations.DeadlineAndCommitTimeout : Prop :=
  ∀ (s : State) (c : CtxId) (x : Txn), s.powered = true → s.txn c = some x →
    (x.state ≠ .commit →
      ∃ t : State, exec (.transactionDeadline c) s = .next t ∧ t = settle (endCtx c .timeout [] s) ∧
        Ended c x .timeout [] s t ∧ OnNoList t c ∧ LetGo c x s t) ∧
    (x.state = .commit → exec (.transactionDeadline c) s =
      .next (s.setTxn c (some { x with deadline := .passed }))) ∧
    (∀ o, x.state = .commit → x.outstanding = some o → (s.commitRec c).timerRunning = true →
      ∃ t : State, exec (.commitTimeout c) s = .next t ∧
        t = settle (endCtx c .uplinkTimeout [] (timeoutEntries c o.entries (takeOutcome c s))) ∧
        Ended c x .uplinkTimeout [] (stopped c s) t) ∧
    ((s.commitRec c).timerRunning = false → exec (.commitTimeout c) s = .next s)

/-! ## Fills and invalidation (chapters 4 and 5) -/

/-- SEGMENT by the tests of R88: ignored and counted late by tests 1 to 4; a version change starts the fill again at the
next generation; a duplicate is counted, and at END asks for what is missing; an accepted one is held, and at END with
segments missing a continuation is asked for, of the lowest missing index and the number missing. A FETCH that falls due
is held back while an earlier one of the slot is on the line (R86, R88-R91). -/
def Obligations.SegmentsAreTested : Prop :=
  ∀ (s : State) (tag : Tag) (kind : Octet) (key : Key) (version : Version) (index flags : Octet)
    (data : List Octet), Listening s → data.length = 32 →
    ((∀ i : SlotId, tag.toNat / 4096 = i.val → (s.slot i).fill = none ∨
        (s.slot i).gen.toNat ≠ tag.toNat % 4096 ∨
        ∃ f, (s.slot i).fill = some f ∧ (f.phase ≠ .requested ∨ f.kind.code ≠ kind ∨ f.key ≠ key ∨
          f.kind.segments ≤ index.toNat)) →
      exec (.segment tag kind key version index flags data) s = .next (countedLate s)) ∧
    (∀ (i : SlotId) (f : Fill), tag.toNat / 4096 = i.val → (s.slot i).gen.toNat = tag.toNat % 4096 →
      (s.slot i).fill = some f → f.phase = .requested → f.kind.code = kind → f.key = key →
      index.toNat < f.kind.segments → f.received.length = f.kind.segments →
      let gen := (s.slot i).gen
      let held := fun j => f.received.getD j none ≠ none
      let f' := { f with received := f.received.set index.toNat (some data), version := some version }
      (∀ v, f.version = some v → v ≠ version →
        exec (.segment tag kind key version index flags data) s =
          .next (asking i (gen + 1) (restarted f) 0 f.kind.segments (counted s))) ∧
      ((f.version = none ∨ f.version = some version) →
        (held index.toNat → flags.getLsbD 1 = false →
          exec (.segment tag kind key version index flags data) s = .next (countedLate s)) ∧
        (held index.toNat → flags.getLsbD 1 = true → ∀ j, j < f.kind.segments → ¬ held j → (∀ j', j' < j → held j') →
          exec (.segment tag kind key version index flags data) s =
            .next (asking i gen f j (f.received.countP Option.isNone) (countedLate s))) ∧
        (¬ held index.toNat → (∃ j, j < f.kind.segments ∧ j ≠ index.toNat ∧ ¬ held j) → flags.getLsbD 1 = false →
          exec (.segment tag kind key version index flags data) s = .next (withFill (counted s) i f')) ∧
        (¬ held index.toNat → flags.getLsbD 1 = true → ∀ j, j < f.kind.segments → j ≠ index.toNat → ¬ held j →
          (∀ j', j' < j → j' = index.toNat ∨ held j') →
          exec (.segment tag kind key version index flags data) s =
            .next (asking i gen f' j (f.received.countP Option.isNone - 1) (counted s)))))

/-- The completing SEGMENT installs the record by KEEP, taint and waiters (R93, R95, R96). With no waiter, no context
queued for the pool and no fill waiting nothing further follows. With waiters, a VALID entry is present to each of them
and wakes them in list order; a TRANSIENT one is owned by the first, which a tainted record makes regather, and the later
ones look up again (R94, R49). The pool's queue is tried behind the waiters of a VALID entry (log entry 30), and the later
waiters of a tainted one go before its owner (log entry 14). The slot is finished with before the waiters go on (log entry
40): it becomes IDLE at its generation, and takes up the oldest fill waiting, if any, at the next (R85, R96). An entry that
becomes VALID or TRANSIENT moves to most recent, the others keeping their order (R69). -/
def Obligations.FillCompletes : Prop :=
  (∀ (s : State) (tag : Tag) (version : Version) (index flags : Octet) (data : List Octet) (i : SlotId) (f : Fill),
    Listening s → data.length = 32 → tag.toNat / 4096 = i.val → (s.slot i).gen.toNat = tag.toNat % 4096 →
    (s.slot i).fill = some f → f.phase = .requested → index.toNat < f.kind.segments →
    f.received.length = f.kind.segments → f.received.getD index.toNat none = none →
    (∀ j, j < f.kind.segments → j ≠ index.toNat → f.received.getD j none ≠ none) →
    (f.version = none ∨ f.version = some version) → s.entry f.kind f.entry = .filling f.key [] →
    (s.pool f.kind).queue = [] → s.fu.waiting = [] → s.um.service ≠ .quiescing →
    (flags.getLsbD 0 = true → f.highest.toNat ≤ version.toNat →
      exec (.segment tag f.kind.code f.key version index flags data) s =
        .next ((((counted s).setEntry f.kind f.entry (.valid
          ⟨f.key, version, (f.received.set index.toNat (some data)).flatMap (·.getD []), none⟩ none [])).touch
            f.kind f.entry).setSlot i { s.slot i with fill := none })) ∧
    (flags.getLsbD 0 = false ∨ version.toNat < f.highest.toNat →
      exec (.segment tag f.kind.code f.key version index flags data) s =
        .next (((counted s).setEntry f.kind f.entry .empty).setSlot i { s.slot i with fill := none }))) ∧
  (∀ (s : State) (tag : Tag) (version : Version) (index flags : Octet) (data : List Octet) (i : SlotId) (f : Fill)
    (ws : List CtxId),
    Listening s → data.length = 32 → tag.toNat / 4096 = i.val → (s.slot i).gen.toNat = tag.toNat % 4096 →
    (s.slot i).fill = some f → f.phase = .requested → index.toNat < f.kind.segments →
    f.received.length = f.kind.segments → f.received.getD index.toNat none = none →
    (∀ j, j < f.kind.segments → j ≠ index.toNat → f.received.getD j none ≠ none) →
    (f.version = none ∨ f.version = some version) → s.entry f.kind f.entry = .filling f.key ws →
    let f' := { f with received := f.received.set index.toNat (some data), version := some version }
    let r := completeFill i f' version (flags.getLsbD 0) (withFill (counted s) i f')
    let copy : Copy := ⟨f.key, version, f'.received.flatMap (·.getD []), none⟩
    let present := fun (w : CtxId) (own : Bool) => ∀ x, s.txn w = some x → ∃ y, r.1.txn w = some y ∧
      y.need f.kind = (x.need f.kind).map fun m => ⟨m.key, some f.entry, own⟩
    exec (.segment tag f.kind.code f.key version index flags data) s = .next (settle r) ∧
    (ws ≠ [] → ∃ u : State, u.fu = (withFill (counted s) i f').fu ∧ r.1 = finishSlot i u) ∧
    (ws ≠ [] → f.entry ∈ (s.pool f.kind).lru →
      (r.1.pool f.kind).lru = (s.pool f.kind).lru.erase f.entry ++ [f.entry]) ∧
    (ws ≠ [] → flags.getLsbD 0 = true → f.highest.toNat ≤ version.toNat →
      r.1.entry f.kind f.entry = .valid copy none [] ∧ (∀ w ∈ ws, present w false) ∧
        r.2 = ws.map .resume ++ [.retry f.kind]) ∧
    ∀ w rest, ws = w :: rest →
      (flags.getLsbD 0 = false → f.highest.toNat ≤ version.toNat →
        r.1.entry f.kind f.entry = .transient copy false w ∧ present w true ∧
          r.2 = .resume w :: rest.map .resume) ∧
      (version.toNat < f.highest.toNat →
        r.1.entry f.kind f.entry = .transient copy true w ∧ present w true ∧
          r.2 = rest.map .resume ++ [.regather w] ∧
        ∀ x, rest = [] → s.txn w = some x → x.abandoned = false → x.regathers < 2 → x.deadline = .running →
          cardOf (settle r) w =
            some { card x with regathers := x.regathers + 1, outstanding := none, committing := false })) ∧
  ∀ (s : State) (i : SlotId),
    (s.fu.waiting = [] → finishSlot i s = s.setSlot i { s.slot i with fill := none }) ∧
    ∀ w ws, s.fu.waiting = w :: ws → finishSlot i s =
      asking i ((s.slot i).gen + 1) { freshFill w.kind w.key w.entry with highest := w.highest } 0 w.kind.segments
        { s with fu := { s.fu with waiting := ws } }

/-- A fill fails on ABSENT, on FETCH_TIMEOUT and on its fifth DEFER. With no waiter its entry becomes EMPTY and its slot
IDLE at the same generation. With any number, every waiter ends with the failure code, its reply in list order, is on no
list and lets go of what it held; the entry is EMPTY or has been allocated again, and the slot is IDLE or has taken up the
next fill (R71, R73, R76, R85, R96; when what the failure sets off follows is the model's choice, log entry 15). Answers
that are not live for a REQUESTED slot are counted late (R87, R101, R102, R103). -/
def Obligations.FillsFail : Prop :=
  (∀ (s : State) (i : SlotId) (f : Fill), Listening s → (s.slot i).fill = some f → f.phase = .requested →
    (s.pool f.kind).queue = [] → s.fu.waiting = [] → s.um.service ≠ .quiescing →
    s.entry f.kind f.entry = .filling f.key [] →
    let failed := fun u : State =>
      (u.setEntry f.kind f.entry .empty).setSlot i { s.slot i with fill := none }
    let tag := tagOf i (s.slot i).gen
    exec (.fetchTimeout i) s = .next (failed s) ∧ exec (.absent tag) s = .next (failed (counted s)) ∧
      (4 ≤ f.defers → ∀ code, exec (.defer tag code) s = .next (failed (counted s)))) ∧
  (∀ (s : State) (i : SlotId) (f : Fill) (ws : List CtxId), Listening s → (s.slot i).fill = some f →
    f.phase = .requested → s.entry f.kind f.entry = .filling f.key ws → ws.Nodup →
    let unknown : ResultCode := match f.kind with
      | .patron => .unknownPatron
      | .title => .unknownTitle
      | .item => .unknownItem
    (∃ t : State, exec (.fetchTimeout i) s = .next t ∧ FillFailed i f ws .uplinkTimeout s t) ∧
    (∃ t : State, exec (.absent (tagOf i (s.slot i).gen)) s = .next t ∧ FillFailed i f ws unknown (counted s) t) ∧
    (4 ≤ f.defers → ∀ code, ∃ t : State, exec (.defer (tagOf i (s.slot i).gen) code) s = .next t ∧
      FillFailed i f ws .uplinkBusy (counted s) t)) ∧
  (∀ (s : State) (tag : Tag) (code : Octet), Listening s →
    (∀ i : SlotId, tag.toNat / 4096 = i.val → (s.slot i).fill = none ∨
      (s.slot i).gen.toNat ≠ tag.toNat % 4096 ∨ ∃ f, (s.slot i).fill = some f ∧ f.phase ≠ .requested) →
    exec (.absent tag) s = .next (countedLate s) ∧ exec (.defer tag code) s = .next (countedLate s))

/-- DEFER discards what is held, counts the defer and starts the delay of its code, 0 taken as 1 and above 15 as 15; the
delay's end asks for the whole record at the next generation (R99, R100, R196). That the delay's end changes nothing for a
slot in REQUESTED is the model's choice (log entry 10). -/
def Obligations.DeferDelaysThenRefetches : Prop :=
  ∀ (s : State) (i : SlotId) (f : Fill), (s.slot i).fill = some f →
    (Listening s → f.phase = .requested → f.defers < 4 → ∀ code : Octet,
      exec (.defer (tagOf i (s.slot i).gen) code) s = .next (withFill (counted s) i { f with
        phase := .deferred (10 * (if code = 0 then 1 else if 15 < code.toNat then 15 else code.toNat))
        received := List.replicate f.kind.segments none
        version := none
        defers := f.defers + 1
        owed := none })) ∧
    (∀ ms, s.powered = true → f.phase = .deferred ms →
      ((s.slot i).onLine = false → exec (.deferDelayEnd i) s =
        .next (sendFrame (.fetch i ((s.slot i).gen + 1) f.kind f.key 0 f.kind.segments)
          (s.setSlot i ⟨(s.slot i).gen + 1, some { f with
            phase := .requested, received := List.replicate f.kind.segments none, version := none,
            owed := none }, true⟩))) ∧
      ((s.slot i).onLine = true → exec (.deferDelayEnd i) s =
        .next (s.setSlot i ⟨(s.slot i).gen + 1, some { f with
          phase := .requested, received := List.replicate f.kind.segments none, version := none,
          owed := some (0, f.kind.segments) }, true⟩))) ∧
    (f.phase = .requested → exec (.deferDelayEnd i) s = .next s)

/-- A change notice of an unknown kind or of key 0 changes nothing, nor does one for a key nobody holds, or holds at a
lower version; a fill keeps the highest version noted. A notice above an entry's version empties an unlocked VALID
entry; an entry held in COMMIT, or TRANSIENT with an ACCOUNT context, is marked with the version and stays; the holder
of an entry in GATHER or DECIDE regathers, which empties it (R52, R77, R78, R79, R97). Whatever entries the notice
finds, every fill for the key, in a slot or waiting for one, takes the version noted when it is higher, and goes on
(R76, R97). The holder's regather is that of the statement RegatherOrEnd, from the state in which FU and RC have noted
the notice, with all that it sets off, the regather itself one of the tasks that log entry 16 bounds (R53, R78; the
order of the parts is log entry 17). -/
def Obligations.InvalidateActsOnEntriesAndFills : Prop :=
  (∀ (s : State) (kind : Octet) (key : Key) (v : Version), Listening s →
    (kind.toNat = 0 ∨ 4 ≤ kind.toNat ∨ key = 0 → exec (.invalidate kind key v) s = .next (counted s))) ∧
  (∀ (s : State) (k : RecordKind) (key : Key) (v : Version), Listening s → key ≠ 0 → s.um.service ≠ .quiescing →
    (∀ n, ¬ Superseded s k key v n) →
    ((∀ i f, (s.slot i).fill = some f → f.kind ≠ k ∨ f.key ≠ key) → (∀ w ∈ s.fu.waiting, w.kind ≠ k ∨ w.key ≠ key) →
      exec (.invalidate k.code key v) s = .next (counted s)) ∧
    ∃ t : State, exec (.invalidate k.code key v) s = .next { counted s with fu := t.fu } ∧
      (∀ i, t.slot i = { s.slot i with fill := (s.slot i).fill.map fun f =>
        if f.kind = k ∧ f.key = key ∧ f.highest.toNat < v.toNat then { f with highest := v } else f }) ∧
      t.fu.waiting = s.fu.waiting.map fun w =>
        if w.kind = k ∧ w.key = key ∧ w.highest.toNat < v.toNat then { w with highest := v } else w) ∧
  (∀ (s : State) (k : RecordKind) (key : Key) (v : Version), Listening s → key ≠ 0 →
    let highest := fun (kind : RecordKind) (key' : Key) (seen : Version) =>
      if kind = k ∧ key' = key ∧ seen.toNat < v.toNat then v else seen
    ∃ t : State, exec (.invalidate k.code key v) s = .next t ∧
      (∀ i f, (s.slot i).fill = some f →
        t.slot i = { s.slot i with fill := some { f with highest := highest f.kind f.key f.highest } }) ∧
      (∃ more, t.fu.waiting =
        (s.fu.waiting.map fun w => { w with highest := highest w.kind w.key w.highest }) ++ more) ∧
      ∀ n copy, copy.key = key → copy.version.toNat < v.toNat →
        (∀ ws, s.entry k n = .valid copy none ws → Vacated t k n) ∧
        (∀ o x ws, s.entry k n = .valid copy (some o) ws → s.txn o = some x → x.state = .commit →
          ∃ ws', t.entry k n = .valid (marked copy v) (some o) ws') ∧
        (∀ o x tainted, s.entry k n = .transient copy tainted o → s.txn o = some x →
          x.state = .commit ∨ (∃ p, x.request = .account p) →
          t.entry k n = .transient (marked copy v) tainted o)) ∧
  (∀ (s : State) (k : RecordKind) (key : Key) (v : Version) (n : Nat) (copy : Copy), Listening s → key ≠ 0 →
    s.um.service ≠ .quiescing → (s.pool k).queue = [] → s.entry k n = .valid copy none [] → Superseded s k key v n →
    (∀ m, m ≠ n → ¬ Superseded s k key v m) →
    (∀ i f, (s.slot i).fill = some f → f.kind ≠ k ∨ f.key ≠ key) → (∀ w ∈ s.fu.waiting, w.kind ≠ k ∨ w.key ≠ key) →
    exec (.invalidate k.code key v) s = .next ((counted s).setEntry k n .empty)) ∧
  (∀ (s : State) (k : RecordKind) (key : Key) (v : Version) (n : Nat) (copy : Copy) (o : CtxId) (x : Txn),
    Listening s → key ≠ 0 → Superseded s k key v n → (∀ m, m ≠ n → ¬ Superseded s k key v m) →
    ((∃ ws, s.entry k n = .valid copy (some o) ws) ∨ ∃ tainted, s.entry k n = .transient copy tainted o) →
    s.txn o = some x → x.state ≠ .commit → (∀ p, x.request ≠ .account p) →
    (∃ key', x.need k = some ⟨key', some n, true⟩) →
    let r := regather o (noticed k key v n (counted s))
    ∃ t : State, exec (.invalidate k.code key v) s = .next t ∧
      t = settleQuiesce (runTasks 65535 r.2 r.1) ∧ Vacated t k n ∧ (∀ d, d ≠ o → cardOf t d = cardOf s d) ∧
      (x.abandoned = false → 2 ≤ x.regathers →
        t.txn o = none ∧ t.dct.counters = s.dct.counters.advance .failed) ∧
      (x.abandoned = false → x.regathers < 2 → x.deadline = .running →
        cardOf t o = some { card x with regathers := x.regathers + 1, outstanding := none, committing := false } ∧
        t.dct.counters = s.dct.counters.advance .regathers ∧ t.lanes = s.lanes))

/-! ## Commits (chapter 6) -/

/-- A RESULT that fails a test of R111 is counted late and changes nothing else; one that passes ends the context with
COMMIT_REFUSED on REFUSED, regathers it on STALE, and on APPLIED ends it with its success reply; the commit timer stops
in each case (R111-R114, R56). -/
def Obligations.ResultsAreTested : Prop :=
  (∀ (s : State) (tag : Tag) (attempt outcome : Octet) (versions : List Version), Listening s →
    versions.length ≤ 3 →
    (∀ c x o, tag.toNat / 4096 = c.val → s.txn c = some x → x.outstanding = some o →
      x.state ≠ .commit ∨ (s.ctx c).gen.toNat ≠ tag.toNat % 4096 ∨ attempt.toNat ≠ o.attempt ∨
      outcome.toNat = 0 ∨ 4 ≤ outcome.toNat ∨ versions.length ≠ o.entries.length) →
    exec (.result tag attempt outcome versions) s = .next (countedLate s)) ∧
  (∀ (s : State) (c : CtxId) (x : Txn) (o : Outstanding) (attempt : Octet) (versions : List Version), Listening s →
    versions.length ≤ 3 → s.txn c = some x → x.state = .commit → x.outstanding = some o →
    attempt.toNat = o.attempt → versions.length = o.entries.length →
    let tag := tagOf c (s.ctx c).gen
    (∃ t : State, exec (.result tag attempt 3 versions) s = .next t ∧
      t = settle (endCtx c .commitRefused [] (takeOutcome c (counted s))) ∧
      Ended c x .commitRefused [] (stopped c (counted s)) t) ∧
    (∃ t : State, exec (.result tag attempt 1 versions) s = .next t ∧
      t = settle (endCtx c o.success o.fields
        (applyEntries c (o.entries.zip versions) (takeOutcome c (counted s)))) ∧
      Ended c x o.success o.fields (stopped c (counted s)) t) ∧
    (∃ t : State, exec (.result tag attempt 2 versions) s = .next t ∧
      t = settle (regather c (staleEntries c (o.entries.zip versions) (takeOutcome c (counted s)))) ∧
      t.cu = (stopped c s).cu ∧ Apart (counted s) t ∧ (∀ d, d ≠ c → cardOf t d = cardOf s d) ∧
      (x.abandoned = true → t.txn c = none ∧ t.lanes = s.lanes ∧ t.dct.counters = s.dct.counters) ∧
      (x.abandoned = false → 2 ≤ x.regathers → Ended c x .retryLater [] (stopped c (counted s)) t) ∧
      (x.abandoned = false → x.regathers < 2 → x.deadline = .running →
        cardOf t c = some { card x with
          regathers := x.regathers + 1, outstanding := none, committing := false } ∧
        t.lanes = s.lanes ∧ t.dct.counters = s.dct.counters.advance .regathers)))

/-- The write-through of an APPLIED result: a CHANGED entry the context holds, VALID and locked or TRANSIENT and owned,
takes the new image and version, moves to most recent, and its stale flag is cleared unless a later version was noted; a
CHECKED entry, every entry it does not hold and the other pools keep theirs; a STALE result and the commit timeout mark
without writing; and so for every entry the UPDATE names, each in turn (R80, R112, R113, R115). -/
def Obligations.OutcomeSettlesEntries : Prop :=
  (∀ (s : State) (c : CtxId) (e : UpdateEntry) (v : Version) (es : List UpdateEntry)
    (evs : List (UpdateEntry × Version)),
    applyEntries c [] s = s ∧ staleEntries c [] s = s ∧ timeoutEntries c [] s = s ∧
    applyEntries c ((e, v) :: evs) s = applyEntries c evs (applyEntries c [(e, v)] s) ∧
    staleEntries c ((e, v) :: evs) s = staleEntries c evs (staleEntries c [(e, v)] s) ∧
    timeoutEntries c (e :: es) s = timeoutEntries c es (timeoutEntries c [e] s)) ∧
  ∀ (s : State) (c : CtxId) (k : RecordKind) (n : Nat) (e : UpdateEntry) (v : Version), e.kind = k → e.entry = n →
    let applied := applyEntries c [(e, v)] s
    let staled := staleEntries c [(e, v)] s
    let timed := timeoutEntries c [e] s
    let written := fun (copy : Copy) (image : Image) => { copy with
      image := image
      version := v
      stale := copy.stale.bind fun m => if v.toNat < m.toNat then some m else none }
    let noted := fun copy : Copy => if v.toNat ≤ copy.version.toNat then copy else marked copy v
    let forced := fun copy : Copy => { copy with stale := some (copy.stale.getD copy.version) }
    (e.image = none → applied = s) ∧
    (∀ copy ws, s.entry k n = .valid copy (some c) ws →
      (∀ image, e.image = some image → applied.entry k n = .valid (written copy image) (some c) ws) ∧
      staled.entry k n = .valid (noted copy) (some c) ws ∧ timed.entry k n = .valid (forced copy) (some c) ws) ∧
    (∀ copy tainted, s.entry k n = .transient copy tainted c →
      (∀ image, e.image = some image → applied.entry k n = .transient (written copy image) tainted c) ∧
      staled.entry k n = .transient (noted copy) tainted c ∧ timed.entry k n = .transient (forced copy) tainted c) ∧
    (∀ image, e.image = some image → holdsEntry c k n s = true → n ∈ (s.pool k).lru →
      (applied.pool k).lru = (s.pool k).lru.erase n ++ [n]) ∧
    ((∀ copy ws, s.entry k n ≠ .valid copy (some c) ws) → (∀ copy tainted, s.entry k n ≠ .transient copy tainted c) →
      applied = s ∧ staled = s ∧ timed = s) ∧
    (∀ m, m ≠ n → applied.entry k m = s.entry k m ∧ staled.entry k m = s.entry k m ∧ timed.entry k m = s.entry k m) ∧
    (∀ j, j ≠ k → applied.pool j = s.pool j ∧ staled.pool j = s.pool j ∧ timed.pool j = s.pool j)

/-! ## Decisions (chapters 7, 8 and 9) -/

/-- AU takes the head of its list and decides it, by its kind, from the images the context holds, the day of decision and
the rule tables (R120, R136, R137); a RENEW whose item gives no title need is decided without a title image, by its first
three checks (R48, R142). How a context in GATHER comes onto that list: a RENEW settles its title need when its
item is present (R48); each missing record is looked up in the order patron, title, item (R49); an ACCOUNT enters DECIDE
with a copy and no lock (R60); the others take their locks in that order, are granted one, wait at the tail of the entry's
list, or find the reference no longer good and look up again (R50, R72); and with every lock held they enter DECIDE and
sample the day (R51), but a RENEW whose title need has changed, which releases its locks, settles the need again and goes
on in GATHER with its regather count unchanged (R50). -/
def Obligations.DecisionsTakeTheHeadContext : Prop :=
  (∀ (s : State) (c : CtxId) (rest : List CtxId) (x : Txn), s.powered = true → s.au.list = c :: rest →
    s.txn c = some x →
    let u : State := { s with au := { s.au with list := rest } }
    let day := (x.day.getD 0).toNat
    (∀ pc tc ic p i, readCopy c x .patron s = some pc → readCopy c x .title s = some tc →
      readCopy c x .item s = some ic → x.request = .renew p i →
      exec .renew s = .next (applyDecision c x (decideRenew s.rs day p pc.image tc.image ic.image) u)) ∧
    (∀ pc ic p i, readCopy c x .patron s = some pc → x.title = none → readCopy c x .item s = some ic →
      x.request = .renew p i → titleNeed ic.image p = none →
      ∀ title, exec .renew s = .next (applyDecision c x (decideRenew s.rs day p pc.image title ic.image) u)) ∧
    (∀ pc p amount ref, readCopy c x .patron s = some pc → x.request = .pay p amount ref →
      exec .pay s = .next (applyDecision c x (decidePay amount.toNat pc.image) u)) ∧
    (∀ image p, x.patronCopy = some image → x.request = .account p →
      exec .account s = .next (applyDecision c x (decideAccount s.rs image) u)) ∧
    (∀ pc tc p t b, readCopy c x .patron s = some pc → readCopy c x .title s = some tc →
      x.request = .hold p t b →
      exec .hold s = .next (applyDecision c x (decideHold s.rs day p b pc.image tc.image) u)) ∧
    (∀ pc tc p t, readCopy c x .patron s = some pc → readCopy c x .title s = some tc → x.request = .cancel p t →
      exec .cancel s = .next (applyDecision c x (decideCancel p pc.image tc.image) u)) ∧
    (∀ tc p t d, readCopy c x .title s = some tc → x.request = .suspend p t d →
      exec .suspend s = .next (applyDecision c x (decideSuspend day p d.toNat tc.image) u)) ∧
    (∀ tc p t, readCopy c x .title s = some tc → x.request = .resume p t →
      exec .resume s = .next (applyDecision c x (decideResume p tc.image) u))) ∧
  ∀ (s : State) (c : CtxId) (x : Txn), s.txn c = some x → x.state = .gather →
    let r := resumeCtx c s
    let unsettled := x.titleSettled = false ∧ ∃ m, x.item = some m ∧ m.ref ≠ none
    let account := ∃ p, x.request = .account p
    (∀ key n held copy, x.titleSettled = false → x.item = some ⟨key, some n, held⟩ → Good s c .item key n copy →
      r = (s.setTxn c (some { x with title := titleNeed copy.image x.request.patronKey, titleSettled := true }),
        [.resume c])) ∧
    (∀ k key held, ¬ unsettled → x.need k = some ⟨key, none, held⟩ → (∀ j ∈ before k, Present x j) →
      ((lookup c k key s).2 = none → r = ((lookup c k key s).1, [])) ∧
      ∀ n, (lookup c k key s).2 = some n →
        r = ((lookup c k key s).1.setTxn c (some (x.setNeed k (some ⟨key, some n, false⟩))), [.resume c])) ∧
    (∀ key n held copy, ¬ unsettled → (∀ k, Present x k) → account → x.patron = some ⟨key, some n, held⟩ →
      Good s c .patron key n copy → r.2 = [] ∧ Decides c { x with patronCopy := some copy.image } s r.1 ∧
        r.1.pool .patron = (s.touch .patron n).pool .patron) ∧
    (∀ k key n, ¬ unsettled → (∀ j, Present x j) → ¬ account → x.need k = some ⟨key, some n, false⟩ →
      (∀ j ∈ before k, Locked x j) →
      (∀ copy ws, copy.key = key → s.entry k n = .valid copy none ws →
        r = (((s.setTxn c (some (x.setNeed k (some ⟨key, some n, true⟩)))).setEntry k n
          (.valid copy (some c) ws)).touch k n, [.resume c])) ∧
      (∀ copy o ws, copy.key = key → o ≠ c → s.entry k n = .valid copy (some o) ws →
        r = (s.setEntry k n (.valid copy (some o) (if c ∈ ws then ws else ws ++ [c])), [])) ∧
      ((∀ copy, ¬ Good s c k key n copy) →
        r = (s.setTxn c (some (x.setNeed k (some ⟨key, none, false⟩))), [.resume c]))) ∧
    (¬ account → (∀ k, Locked x k) → (∀ p i, x.request ≠ .renew p i) → ¬ unsettled →
      r.2 = [] ∧ Decides c x s r.1) ∧
    (∀ key n copy p i, x.request = .renew p i → (∀ k, Locked x k) → x.titleSettled = true →
      x.item = some ⟨key, some n, true⟩ → Good s c .item key n copy →
      ((titleNeed copy.image p).map Need.key = x.title.map Need.key → r.2 = [] ∧ Decides c x s r.1) ∧
      ((titleNeed copy.image p).map Need.key ≠ x.title.map Need.key →
        (∀ k key n copy o ws, x.need k = some ⟨key, some n, true⟩ → s.entry k n = .valid copy o ws → c ∉ ws) →
        .resume c ∈ r.2 ∧ cardOf r.1 c = some (card x) ∧ r.1.dct.counters = s.dct.counters ∧
        (∃ y, r.1.txn c = some y ∧ y.state = .gather ∧ y.title = titleNeed copy.image p) ∧
        ∀ k key n copy ws, x.need k = some ⟨key, some n, true⟩ → s.entry k n = .valid copy (some c) ws →
          ∀ copy' ws', r.1.entry k n ≠ .valid copy' (some c) ws'))

/-- AU reads all the held images, which moves each held entry to most recent, but for an ACCOUNT (R69, R136, log entry
20). The four ways a decision ends: a refusal and a success without change end the context with that reply, which lets
go of all it holds (R57, R73, R76); a success that changes records queues its UPDATE, starts the commit timer and enters
COMMIT with no entry changed; a rule wait keeps the context in DECIDE and is counted (R137, R139, R107, R109). The
UPDATE names each record the context holds, in the order patron, title, item, with its key, the version AU read and the
new image of a CHANGED one, and carries the payment reference for a PAY only (R107, R108). -/
def Obligations.DecisionOutcomes : Prop :=
  ∀ (s : State) (c : CtxId) (x : Txn) (d : Decision), s.txn c = some x →
    (∀ k key n, (∃ b, d.verdict = .wait b) ∨ (∃ code fields images, d.verdict = .commit code fields images) →
      n ∈ (s.pool k).lru → (x.need k = some ⟨key, some n, true⟩ → (∀ p, x.request ≠ .account p) →
        ((applyDecision c x d s).pool k).lru = (s.pool k).lru.erase n ++ [n]) ∧
      (∀ p, x.request = .account p → ((applyDecision c x d s).pool k).lru = (s.pool k).lru)) ∧
    (∀ code, d.verdict = .refuse code → applyDecision c x d s = settle (endCtx c code [] (imagesRead x s)) ∧
      Ended c x code [] s (applyDecision c x d s) ∧ LetGo c x s (applyDecision c x d s)) ∧
    (∀ code fields, d.verdict = .succeed code fields →
      applyDecision c x d s = settle (endCtx c code fields (imagesRead x s)) ∧
      Ended c x code fields s (applyDecision c x d s) ∧ LetGo c x s (applyDecision c x d s)) ∧
    (∀ b, d.verdict = .wait b →
      (applyDecision c x d s).txn c = some { x with ruleWait := some b } ∧
      (applyDecision c x d s).dct.counters = s.dct.counters.advance .ruleWaits ∧
      c ∈ (applyDecision c x d s).au.waits ∧ (applyDecision c x d s).lanes = s.lanes ∧
      ∀ k n, (applyDecision c x d s).entry k n = s.entry k n) ∧
    (∀ code fields images, d.verdict = .commit code fields images →
      let t := applyDecision c x d s
      let entries := [RecordKind.patron, .title, .item].filterMap fun k => match x.need k, readCopy c x k s with
        | some ⟨key, some n, _⟩, some copy => some ⟨k, n, key, copy.version, match k with
          | .patron => images.patron
          | .title => images.title
          | .item => images.item⟩
        | _, _ => none
      let reference := match x.request with
        | .pay _ _ r => some r
        | _ => none
      let frame := Frame.update c (s.ctx c).gen x.regathers entries reference
      t.txn c = some { x with
        state := .commit
        outstanding := some ⟨x.regathers, entries, reference, code, fields⟩ } ∧
      (t.commitRec c).timerRunning = true ∧ (t.commitRec c).onLine = true ∧
      ((s.commitRec c).onLine = true → (t.commitRec c).owed = some frame ∧ t.bli = s.bli) ∧
      ((s.commitRec c).onLine = false → t.bli.held = s.bli.held ++ [frame]) ∧
      t.lanes = s.lanes ∧ t.dct.counters = s.dct.counters ∧ ∀ k n, t.entry k n = s.entry k n) ∧
    ∀ k key n held copy, x.need k = some ⟨key, some n, held⟩ → (readCopy c x k s = some copy ↔ Good s c k key n copy)

/-- The twelve renewal checks in their order, each refused before the rule reads behind it: a patron class or loan rule
block that is not available makes the decision wait after checks 1 to 5, and a window base or calendar block after check 9,
in the fine stage, or after check 11, in the due stage (R138, R139). Check 9 counts the other patrons' WAITING holds with
no suspend-until day or one not after today (R141-R147, R156). The fine's item number is the item image's (log entry
38). -/
def Obligations.RenewalChecksInOrder : Prop :=
  ∀ (r : RuleStore) (today : Nat) (p : Key) (patron title item : Image),
    let verdict := (decideRenew r today p patron title item).verdict
    let fines := fineList patron
    let waiting := (holdList title).countP fun h =>
      decide (h.patron ≠ p.toNat ∧ h.ready = false ∧ (h.suspend = 0 ∨ h.suspend ≤ today))
    let early : Option ResultCode :=
      if loanPresent item = false then some .notOnLoan else if borrower item ≠ p then some .notYours
      else if itemTitle item = 0 then some .unknownTitle else if cardExpiry patron ≤ today then some .cardExpired
      else if manualBlock patron = true then some .blocked else none
    (∀ code, early = some code → verdict = .refuse code) ∧
    (early = none →
      (∀ b, readClass r (patronClassOf patron) = .error (.wait b) → verdict = .wait b) ∧
      (∀ co b, readClass r (patronClassOf patron) = .ok co →
        readLoanRule r (patronClassOf patron) (itemClass item) = .error (.wait b) → verdict = .wait b) ∧
      (∀ co ro, readClass r (patronClassOf patron) = .ok co →
        readLoanRule r (patronClassOf patron) (itemClass item) = .ok ro → (co = none ∨ ro = none) →
        verdict = .refuse .noRule) ∧
      (∀ cls rule, readClass r (patronClassOf patron) = .ok (some cls) →
        readLoanRule r (patronClassOf patron) (itemClass item) = .ok (some rule) →
        let fined := fineOf r (owningBranch item) rule cls.discount (dueDay item) today
        let extended := newDueDay r (owningBranch item) rule.loanDays (dueDay item) today (cardExpiry patron)
        (rule.renewable ≠ 1 → verdict = .refuse .notRenewable) ∧
        (rule.renewable = 1 → rule.maxRenewals ≤ renewalsUsed item → verdict = .refuse .limitReached) ∧
        (rule.renewable = 1 → renewalsUsed item < rule.maxRenewals →
          (freeCopies title < waiting → verdict = .refuse .heldForOther) ∧
          (waiting ≤ freeCopies title →
            (∀ b, fined = .error (.wait b) → verdict = .wait b) ∧
            ∀ fine, fined = .ok fine →
              (0 < fine → 12 ≤ fines.length → verdict = .refuse .finesFull) ∧
              (fine = 0 ∨ fines.length < 12 →
                (cls.threshold ≤ balanceOf fines + fine → verdict = .refuse .blocked) ∧
                (balanceOf fines + fine < cls.threshold →
                  (∀ b, extended = .error (.wait b) → verdict = .wait b) ∧
                  (extended = .ok none → verdict = .refuse .noExtension) ∧
                  ∀ day shortened, extended = .ok (some (day, shortened)) → verdict = .commit .renewed
                    (beOctets 2 day ++ beOctets 2 fine ++
                      [octet (rule.maxRenewals - (renewalsUsed item + 1)), if shortened then 1 else 0])
                    ⟨if fine = 0 then none else some (putFines patron (fines ++ [⟨itemNumber item, fine, today⟩])),
                     none, some (putRenewal item day)⟩))))))

/-- The fine: no more than the grace overdue gives 0, and nothing is read for it; otherwise the open days among the overdue
days at the rate, capped, less the discount, rounded to the nearest cent with an exact half down; never above the cap
(R124-R127). Past the grace the window base is read, then the overdue days in their order, and the first read that is not
served makes the decision wait; an interval that lies outside the window, or a branch above 63, is all open and waits for no
calendar block (R122, R125, R138, R139). -/
def Obligations.FineComputation : Prop :=
  ∀ (r : RuleStore) (b : Nat) (rule : LoanRule) (discount due today : Nat),
    let days := today - due
    let result := fineOf r b rule discount due today
    (days ≤ rule.grace → result = .ok 0) ∧
    (rule.grace < days →
      (∀ x, readBase r = .error (.wait x) → result = .error (.wait x)) ∧
      ∀ base, readBase r = .ok base →
        let closed := fun j => dayClosed r b base (due + 1 + j)
        (∀ j x, j < days → (∀ j', j' < j → ∃ y, closed j' = .ok y) → closed j = .error (.wait x) →
          result = .error (.wait x)) ∧
        (discount ≤ 100 →
          (∀ isClosed : Nat → Bool, (∀ j, j < days → closed j = .ok (isClosed j)) →
            let capped := min (((List.range days).filter fun j => !isClosed j).length * rule.rate) rule.cap
            ∃ fine, result = .ok fine ∧ fine ≤ rule.cap ∧ fine = (capped * (100 - discount) + 49) / 100 ∧
              2 * capped * (100 - discount) ≤ 200 * fine + 100 ∧
              200 * fine < 2 * capped * (100 - discount) + 100) ∧
          (63 < b ∨ (∀ w, base = some w → today < w ∨ w + 511 < due + 1) →
            result = .ok ((min (days * rule.rate) rule.cap * (100 - discount) + 49) / 100))))

/-- The due day: the later of the present one and today plus the loan days, moved off closed days for at most 31, held to
the card expiry; a day given is later than the present due day and no later than the expiry (R129-R132). The window base is
read first, then the days in their order, each only when the days before it were closed, and the first read that is not
served makes the decision wait; a candidate outside the window, or a branch above 63, is open and waits for no calendar
block (R122, R130, R138, R139). That day 65,535 is not looked up is the model's choice (log entry 37). -/
def Obligations.DueDayComputation : Prop :=
  ∀ (r : RuleStore) (b loanDays due today expiry : Nat),
    let result := newDueDay r b loanDays due today expiry
    (∀ x, readBase r = .error (.wait x) → result = .error (.wait x)) ∧
    ∀ base, readBase r = .ok base → due ≤ 65535 →
      let candidate := max due (min 65535 (today + loanDays))
      let closed := fun j => dayClosed r b base (candidate + j)
      let given := fun moved => result = .ok (if min (candidate + moved) expiry ≤ due then none
        else some (min (candidate + moved) expiry, decide (expiry < candidate + moved)))
      (∀ moved, moved ≤ 31 → candidate + moved ≤ 65535 → (∀ j, j < moved → closed j = .ok true) →
        (moved = 31 ∨ candidate + moved = 65535 ∨ closed moved = .ok false) → given moved) ∧
      (∀ n x, n < 31 → candidate + n < 65535 → (∀ j, j < n → closed j = .ok true) → closed n = .error (.wait x) →
        result = .error (.wait x)) ∧
      ((∀ j, j < 31 → ∃ y, closed j = .ok y) → ∃ moved, moved ≤ 31 ∧ candidate + moved ≤ 65535 ∧ given moved) ∧
      (63 < b ∨ (∀ w, base = some w → candidate < w ∨ w + 511 < candidate) → given 0)

/-- A calendar day: open above branch 63, with no window base, and outside the 512 days from it; inside, by the mark of
its entry, a blank one open; a block that is not VALID makes the decision wait (R122, R181). The other rule reads: the
class entry and the window base from PC, the loan rule from LR of the patron class, a class above 15 blank unread (R121). -/
def Obligations.CalendarDays : Prop :=
  (∀ (r : RuleStore) (pc ic : Nat) (lr : BlockId),
    (15 < pc → readClass r pc = .ok none ∧ readLoanRule r pc ic = .ok none) ∧
    (15 < ic → readLoanRule r pc ic = .ok none) ∧
    ((r.block 12).content ≠ .valid → readBase r = .error (.wait 12) ∧ (pc ≤ 15 → readClass r pc = .error (.wait 12))) ∧
    ((r.block 12).content = .valid →
      ((r.block 12).entries.getD 16 none = none → readBase r = .ok none) ∧
      (∀ w, (r.block 12).entries.getD 16 none = some (.windowBase w) → readBase r = .ok (some w)) ∧
      (pc ≤ 15 →
        ((r.block 12).entries.getD pc none = none → readClass r pc = .ok none) ∧
        ∀ p, (r.block 12).entries.getD pc none = some (.patronClass p) → readClass r pc = .ok (some p))) ∧
    (pc ≤ 15 → ic ≤ 15 → lr.val = pc / 4 →
      ((r.block lr).content ≠ .valid → readLoanRule r pc ic = .error (.wait lr)) ∧
      ((r.block lr).content = .valid →
        ((r.block lr).entries.getD (pc % 4 * 16 + ic) none = none → readLoanRule r pc ic = .ok none) ∧
        ∀ l, (r.block lr).entries.getD (pc % 4 * 16 + ic) none = some (.loanRule l) →
          readLoanRule r pc ic = .ok (some l)))) ∧
  ∀ (r : RuleStore) (b w d : Nat),
    dayClosed r b none d = .ok false ∧ (63 < b → dayClosed r b (some w) d = .ok false) ∧
    ((d < w ∨ w + 511 < d) → dayClosed r b (some w) d = .ok false) ∧
    (∀ block : BlockId, b ≤ 63 → w ≤ d → d ≤ w + 511 → block.val = 4 + b / 8 →
      ((r.block block).content ≠ .valid → dayClosed r b (some w) d = .error (.wait block)) ∧
      ((r.block block).content = .valid →
        ((r.block block).entries.getD (b % 8 * 8 + (d - w) / 64) none = none →
          dayClosed r b (some w) d = .ok false) ∧
        ∀ marks, (r.block block).entries.getD (b % 8 * 8 + (d - w) / 64) none = some (.calendar marks) →
          dayClosed r b (some w) d = .ok (marks.getLsbD ((d - w) % 64))))

/-- A payment: refused outside 1 to 99,999 or with nothing owed; otherwise the lesser of the amount and the balance is
taken off the fines oldest first, and what is left is the balance less it (R135, R148). -/
def Obligations.PaymentsTakeOldestFirst : Prop :=
  (∀ (fines : List Fine) (a : Nat), (∀ f ∈ fines, 0 < f.amount) → a ≤ balanceOf fines →
    balanceOf (payOff a fines) = balanceOf fines - a ∧ (∀ f ∈ payOff a fines, 0 < f.amount) ∧
    ∃ k, (payOff a fines = fines.drop k ∨
      ∃ f rest taken, fines.drop k = f :: rest ∧ 0 < taken ∧ taken < f.amount ∧
        payOff a fines = { f with amount := f.amount - taken } :: rest)) ∧
  (∀ (amount : Nat) (patron : Image),
    let balance := balanceOf (fineList patron)
    (amount < 1 ∨ 99999 < amount → (decidePay amount patron).verdict = .refuse .badRequest) ∧
    (1 ≤ amount → amount ≤ 99999 → balance = 0 → (decidePay amount patron).verdict = .refuse .nothingOwed) ∧
    (1 ≤ amount → amount ≤ 99999 → balance ≠ 0 → (decidePay amount patron).verdict =
      .commit .paid (beOctets 4 (min amount balance) ++ beOctets 4 (balance - min amount balance))
        ⟨some (putFines patron (payOff (min amount balance) (fineList patron))), none, none⟩))

/-- ACCOUNT is never refused and reports the copy with the blocked indication, and waits while PC is not available; HOLD is
decided by its seven checks in order, the first three of them without a rule read, and waits behind them while PC is not
available; a hold placed stands at the tail (R139, R150, R151, R159-R161). -/
def Obligations.AccountAndHoldDecisions : Prop :=
  ∀ (r : RuleStore) (patron : Image),
    let fines := fineList patron
    (∀ b, readClass r (patronClassOf patron) = .error (.wait b) →
      (decideAccount r patron).verdict = .wait b) ∧
    (∀ co, readClass r (patronClassOf patron) = .ok co → (decideAccount r patron).verdict =
      .succeed .accountInfo (beOctets 4 (balanceOf fines) ++ [octet fines.length] ++
        beOctets 2 (fines.headD ⟨0, 0, 0⟩).amount ++ beOctets 2 (fines.headD ⟨0, 0, 0⟩).day ++
        [octet (holdsCount patron)] ++ beOctets 2 (cardExpiry patron) ++
        [if manualBlock patron = true ∨ co = none ∨ ∃ cls, co = some cls ∧ cls.threshold ≤ balanceOf fines
          then 1 else 0])) ∧
    (∀ (today : Nat) (p : Key) (pickup : Octet) (title : Image),
      let verdict := (decideHold r today p pickup patron title).verdict
      (63 < pickup.toNat → verdict = .refuse .badRequest) ∧
      (pickup.toNat ≤ 63 → cardExpiry patron ≤ today → verdict = .refuse .cardExpired) ∧
      (pickup.toNat ≤ 63 → today < cardExpiry patron → manualBlock patron = true → verdict = .refuse .blocked) ∧
      (pickup.toNat ≤ 63 → today < cardExpiry patron → manualBlock patron = false →
        (∀ b, readClass r (patronClassOf patron) = .error (.wait b) → verdict = .wait b) ∧
        (readClass r (patronClassOf patron) = .ok none → verdict = .refuse .noRule) ∧
        ∀ cls, readClass r (patronClassOf patron) = .ok (some cls) → verdict =
            if cls.threshold ≤ balanceOf fines then .refuse .blocked
            else if ∃ h ∈ holdList title, h.patron = p.toNat then .refuse .duplicate
            else if cls.maxHolds ≤ holdsCount patron then .refuse .limitReached
            else if 24 ≤ (holdList title).length then .refuse .queueFull
            else .commit .holdPlaced [octet ((holdList title).length + 1)]
              ⟨some (putHoldsCount (putFines patron fines) (holdsCount patron + 1)),
               some (putHolds title (holdList title ++ [⟨p.toNat, pickup.toNat, false, today, 0, 0⟩])), none⟩))

/-- CANCEL, SUSPEND and RESUME: refused without the patron's hold; a SUSPEND only of a WAITING hold and for a later day,
held to 180 days; a RESUME commits only where there is a day to remove (R162-R166). -/
def Obligations.CancelSuspendResumeDecisions : Prop :=
  ∀ (p : Key) (patron title : Image) (today requested : Nat),
    let holds := holdList title
    let set := fun day => putHolds title
      (holds.map fun h => if h.patron = p.toNat then { h with suspend := day } else h)
    ((∀ h ∈ holds, h.patron ≠ p.toNat) →
      (decideCancel p patron title).verdict = .refuse .noSuchHold ∧
      (decideResume p title).verdict = .refuse .noSuchHold ∧
      (today < requested → (decideSuspend today p requested title).verdict = .refuse .noSuchHold)) ∧
    (requested ≤ today → (decideSuspend today p requested title).verdict = .refuse .badRequest) ∧
    (∀ h, holds.find? (fun h => decide (h.patron = p.toNat)) = some h →
      (decideCancel p patron title).verdict = .commit .holdCancelled []
        ⟨some (putHoldsCount (putFines patron (fineList patron)) (holdsCount patron - 1)),
         some (putHolds title (holds.filter fun h => decide (h.patron ≠ p.toNat))), none⟩ ∧
      (today < requested → h.ready = true →
        (decideSuspend today p requested title).verdict = .refuse .notSuspendable) ∧
      (today < requested → h.ready = false → (decideSuspend today p requested title).verdict =
        .commit .holdSuspended
          (beOctets 2 (min requested (today + 180)) ++ [if today + 180 < requested then 1 else 0])
          ⟨none, some (set (min requested (today + 180))), none⟩) ∧
      (h.suspend = 0 → (decideResume p title).verdict = .succeed .holdResumed []) ∧
      (h.suspend ≠ 0 → (decideResume p title).verdict = .commit .holdResumed [] ⟨none, some (set 0), none⟩))

/-- The fields of a record image stand at their octets, high octet first (R198): a fine list passes over empty slots, a
hold list passes over empty slots and later holds of one patron (R133, R154). Lists written into an image stand packed from
the first slot, the slots behind them 0, and are read back as they are; the image keeps its size and its other fields. A
renewal writes the due day and the renewals used alone, a holds count its octet alone (R134, R147, R157, R158, R199). -/
def Obligations.ListsInImagesRoundTrip : Prop :=
  (∀ patron : Image, patron.length = 128 →
    patronClassOf patron = field patron 4 1 ∧ cardExpiry patron = field patron 6 2 ∧
    (manualBlock patron = true ↔ field patron 8 1 ≠ 0) ∧ holdsCount patron = field patron 9 1 ∧
    fineList patron = ((List.range 12).map fun k => (⟨field patron (32 + 8 * k) 4, field patron (36 + 8 * k) 2,
      field patron (38 + 8 * k) 2⟩ : Fine)).filter (fun f => decide (f.amount ≠ 0)) ∧
    ∀ n, putHoldsCount patron n = patron.set 9 (BitVec.ofNat 8 n)) ∧
  (∀ item : Image, item.length = 32 →
    itemNumber item = field item 0 4 ∧ (itemTitle item).toNat = field item 4 4 ∧ itemClass item = field item 8 1 ∧
    owningBranch item = field item 9 1 ∧ (loanPresent item = true ↔ field item 10 1 ≠ 0) ∧
    (borrower item).toNat = field item 11 4 ∧ dueDay item = field item 15 2 ∧ renewalsUsed item = field item 17 1 ∧
    ∀ day, putRenewal item day = item.take 15 ++ octetsOf 2 (BitVec.ofNat 16 day) ++
      [BitVec.ofNat 8 (field item 17 1 + 1)] ++ item.drop 18) ∧
  (∀ title : Image, title.length = 256 →
    let flags := fun k => title.getD (10 + 10 * k) 0
    let slot := fun k => (⟨field title (6 + 10 * k) 4, (flags k &&& 0x3F).toNat, (flags k).getLsbD 6,
      field title (11 + 10 * k) 2, field title (13 + 10 * k) 2, field title (15 + 10 * k) 1⟩ : Hold)
    freeCopies title = field title 4 1 ∧
    holdList title = ((List.range 24).filter fun k => decide ((slot k).patron ≠ 0 ∧
      ∀ j, j < k → (slot j).patron ≠ (slot k).patron)).map slot) ∧
  (∀ h : Hold, h.shelfExpiry = if h.ready = true then some (h.placed + h.offset) else none) ∧
  (∀ (patron : Image) (fines : List Fine) (k : Nat), patron.length = 128 → fines.length ≤ 12 → k < 12 →
    ((putFines patron fines).drop (32 + 8 * k)).take 8 = match fines[k]? with
      | some f => octetsOf 4 (BitVec.ofNat 32 f.item) ++ octetsOf 2 (BitVec.ofNat 16 f.amount) ++
          octetsOf 2 (BitVec.ofNat 16 f.day)
      | none => List.replicate 8 0) ∧
  (∀ (title : Image) (holds : List Hold) (k : Nat), title.length = 256 → holds.length ≤ 24 →
    (∀ h ∈ holds, h.branch ≤ 63) → k < 24 →
    ((putHolds title holds).drop (6 + 10 * k)).take 10 = match holds[k]? with
      | some h => octetsOf 4 (BitVec.ofNat 32 h.patron) ++
          [BitVec.ofNat 8 (if h.ready = true then 0x40 + h.branch else h.branch)] ++
          octetsOf 2 (BitVec.ofNat 16 h.placed) ++ octetsOf 2 (BitVec.ofNat 16 h.suspend) ++
          [if h.ready = true then BitVec.ofNat 8 h.offset else 0]
      | none => List.replicate 10 0) ∧
  (∀ (patron : Image) (fines : List Fine), patron.length = 128 → fines.length ≤ 12 →
    (∀ f ∈ fines, f.item < 2 ^ 32 ∧ 1 ≤ f.amount ∧ f.amount ≤ 65535 ∧ f.day ≤ 65535) →
    fineList (putFines patron fines) = fines ∧ (putFines patron fines).length = 128 ∧
      (putFines patron fines).take 32 = patron.take 32) ∧
  (∀ (title : Image) (holds : List Hold), title.length = 256 → holds.length ≤ 24 →
    (holds.map Hold.patron).Nodup →
    (∀ h ∈ holds, 1 ≤ h.patron ∧ h.patron < 2 ^ 32 ∧ h.branch ≤ 63 ∧ h.placed ≤ 65535 ∧ h.suspend ≤ 65535 ∧
      h.offset ≤ 255 ∧ (h.ready = false → h.offset = 0)) →
    ((holdList (putHolds title holds)).map fun h => (h.patron, h.branch, h.ready, h.placed, h.suspend, h.offset)) =
        (holds.map fun h => (h.patron, h.branch, h.ready, h.placed, h.suspend, h.offset)) ∧
      (putHolds title holds).length = 256 ∧ freeCopies (putHolds title holds) = freeCopies title ∧
      (putHolds title holds).take 5 = title.take 5 ∧ (putHolds title holds).drop 246 = title.drop 246 ∧
      natAt (putHolds title holds) 5 1 = holds.length)

/-! ## The rule store (chapter 10) -/

/-- TABLE_CLEAR, TABLE_WRITE and TABLE_CLOSE: refused by the first test that fails, with its flag set, or started
(R172, R173, R174, R176, R202). -/
def Obligations.TableCommandsStartOrRefuse : Prop :=
  ∀ (s : State) (seq block entry : Octet) (values : List Octet), Manageable s → values.length ≤ 476 →
    (13 ≤ block.toNat →
      exec (.tableClear seq block) s = .next (answer seq 0x0B .badValue [] (counted s)) ∧
      exec (.tableWrite seq block entry values) s = .next (answer seq 0x0C .badValue [] (counted s)) ∧
      exec (.tableClose seq block) s = .next (answer seq 0x0D .badValue [] (counted s))) ∧
    ∀ b : BlockId, block.toNat = b.val →
      let x := s.rs.block b
      let size := if b.val = 12 then (if entry.toNat = 16 then 2 else 6) else 8
      let flagged := { counted s with rs := { s.rs with sequenceError := true } }
      (values.length ≠ size →
        exec (.tableWrite seq block entry values) s = .next (answer seq 0x0C .badValue [] (counted s))) ∧
      (s.rs.operation ≠ none →
        exec (.tableClear seq block) s = .next (answer seq 0x0B .busy [] (counted s)) ∧
        exec (.tableClose seq block) s = .next (answer seq 0x0D .busy [] (counted s)) ∧
        (values.length = size →
          exec (.tableWrite seq block entry values) s = .next (answer seq 0x0C .busy [] (counted s)))) ∧
      (s.rs.operation = none →
        exec (.tableClear seq block) s = .next (operating (counted s) b ⟨.clear, b, seq, 0x0B⟩) ∧
        (s.rs.writeError = true ∨ s.rs.sequenceError = true →
          exec (.tableClose seq block) s = .next (answer seq 0x0D .errorPending [] (counted s)) ∧
          (values.length = size → exec (.tableWrite seq block entry values) s =
            .next (answer seq 0x0C .errorPending [] (counted s)))) ∧
        (s.rs.writeError = false → s.rs.sequenceError = false →
          (x.content = .valid ∨ x.content = .incomplete →
            exec (.tableClose seq block) s = .next (answer seq 0x0D .sequenceError [] flagged) ∧
            (values.length = size → exec (.tableWrite seq block entry values) s =
              .next (answer seq 0x0C .sequenceError [] flagged))) ∧
          (x.content = .blank ∨ x.content = .partly →
            exec (.tableClose seq block) s = .next (operating (counted s) b ⟨.close, b, seq, 0x0D⟩) ∧
            (values.length = size →
              ((if b.val = 12 then 17 else 64) ≤ entry.toNat →
                exec (.tableWrite seq block entry values) s =
                  .next (answer seq 0x0C .sequenceError [] flagged)) ∧
              (entry.toNat < (if b.val = 12 then 17 else 64) →
                (x.entries.getD entry.toNat none ≠ none → exec (.tableWrite seq block entry values) s =
                  .next (answer seq 0x0C .writeError []
                    { counted s with rs := { s.rs with writeError := true } })) ∧
                (x.entries.getD entry.toNat none = none → exec (.tableWrite seq block entry values) s =
                  .next (operating (counted s) b ⟨.write entry.toNat values, b, seq, 0x0C⟩)))))))

/-- TABLE_ABORT ends the operation with its block left INCOMPLETE and answers both commands in order; TABLE_READ reports
the block's state and the entry unless it is INCOMPLETE, with the codes of R202 and a written entry's octets as R200 lays
them out; TABLE_STATUS_CLEAR clears both flags of a READY store (R172, R177, R179, R180, R200, R202). That the entries of the aborted block keep their earlier values is the model's choice (log entry 23). -/
def Obligations.TableAbortReadStatus : Prop :=
  (∀ v : RuleEntry, v.octets =
    let number := fun n : Nat => BitVec.ofNat 8 n
    match v with
    | .loanRule r => [number r.renewable, number r.loanDays, number r.maxRenewals, number (r.rate / 256), number r.rate,
        number (r.cap / 256), number r.cap, number r.grace]
    | .patronClass p => [number (p.threshold / 16777216), number (p.threshold / 65536), number (p.threshold / 256),
        number p.threshold, number p.discount, number p.maxHolds]
    | .windowBase w => [number (w / 256), number w]
    | .calendar marks => (List.range 8).map fun j => marks.extractLsb' (8 * j) 8) ∧
  ∀ (s : State) (seq block entry : Octet), Manageable s →
    (s.rs.operation = none →
      exec (.tableAbort seq) s = .next (answer seq 0x0E .nothingToAbort [] (counted s)) ∧
      exec (.tableStatusClear seq) s = .next (answer seq 0x10 .done []
        { counted s with rs := { s.rs with writeError := false, sequenceError := false } })) ∧
    (∀ o, s.rs.operation = some o →
      exec (.tableAbort seq) s = .next (answer seq 0x0E .done [] (answer o.seq o.command .aborted []
        { counted s with rs := { s.rs with operation := none } })) ∧
      exec (.tableStatusClear seq) s = .next (answer seq 0x10 .busy [] (counted s))) ∧
    (13 ≤ block.toNat → exec (.tableRead seq block entry) s = .next (answer seq 0x0F .badValue [] (counted s))) ∧
    ∀ b : BlockId, block.toNat = b.val →
      let x := s.rs.block b
      let size := if b.val = 12 then (if entry.toNat = 16 then 2 else 6) else 8
      let under : Octet := if ∃ o, s.rs.operation = some o ∧ o.block = b then 1 else 0
      let content : Octet := match x.content with
        | .blank => 0
        | .partly => 1
        | .valid => 2
        | .incomplete => 3
      let reply := fun fields => exec (.tableRead seq block entry) s =
        .next (answer seq 0x0F .done fields (counted s))
      ((if b.val = 12 then 17 else 64) ≤ entry.toNat →
        exec (.tableRead seq block entry) s = .next (answer seq 0x0F .badValue [] (counted s))) ∧
      (entry.toNat < (if b.val = 12 then 17 else 64) →
        (x.content = .incomplete → reply ([3, under, 2] ++ List.replicate size 0)) ∧
        (x.content ≠ .incomplete →
          (x.entries.getD entry.toNat none = none →
            reply ([content, under, 0] ++ List.replicate size 0)) ∧
          ∀ v, x.entries.getD entry.toNat none = some v → reply ([content, under, 1] ++ v.octets)))

/-- The completions: a CLEAR leaves the block BLANK with every entry blank; a WRITE leaves it PARTIAL with the entry
written within its ranges; a CLOSE leaves it VALID and puts the contexts waiting for it back on AU's list, in their
order; each makes the store READY and answers its command (R173-R176, R140). That a completion of no such operation changes
nothing is the model's choice (log entry 10). -/
def Obligations.StoreOperationsComplete : Prop :=
  ∀ (s : State) (b : BlockId) (seq command : Octet), s.powered = true →
    let done := fun x : Block => { s with rs := { s.rs with blocks := s.rs.blocks.set b x, operation := none } }
    (s.rs.operation = some ⟨.clear, b, seq, command⟩ → exec .clearComplete s =
      .next (answer seq command .done []
        (done ⟨.blank, List.replicate (if b.val = 12 then 17 else 64) none⟩))) ∧
    (∀ e values, s.rs.operation = some ⟨.write e values, b, seq, command⟩ → exec .writeComplete s =
      .next (answer seq command (if (entryOf b e values).octets = values then .done else .clamped) []
        (done ⟨.partly, (s.rs.block b).entries.set e (some (entryOf b e values))⟩))) ∧
    (s.rs.operation = some ⟨.close, b, seq, command⟩ → ∃ t, exec .closeComplete s = .next t ∧
      t.rs = (done ⟨.valid, (s.rs.block b).entries⟩).rs ∧
      t.au.list = s.au.list ++ s.au.waits.filter (fun c => decide ((s.txn c).bind Txn.ruleWait = some b)) ∧
      t.au.waits = s.au.waits.filter (fun c => decide ((s.txn c).bind Txn.ruleWait ≠ some b)) ∧
      (∀ c ∈ s.au.waits, (s.txn c).bind Txn.ruleWait = some b → (t.txn c).bind Txn.ruleWait = none) ∧
      t.um = (answer seq command .done [] s).um ∧ t.bli = (answer seq command .done [] s).bli ∧
      t.lanes = s.lanes ∧ t.rc = s.rc) ∧
    ((∀ o, s.rs.operation = some o → o.kind ≠ .clear) → exec .clearComplete s = .next s) ∧
    ((∀ o, s.rs.operation = some o → o.kind ≠ .close) → exec .closeComplete s = .next s) ∧
    ((∀ o e v, s.rs.operation = some o → o.kind ≠ .write e v) → exec .writeComplete s = .next s)

/-- A field outside its range is written as the nearest value within it; the cap and the day marks are written as given
(R170, R175, R200). -/
def Obligations.WritesAreClamped : Prop :=
  ∀ (values : List Octet),
    (∀ b : BlockId, b.val < 4 → values.length = 8 → ∃ l : LoanRule, ∀ e, entryOf b e values = .loanRule l ∧
      l.renewable = min 1 (natAt values 0 1) ∧ l.loanDays = max 1 (min 120 (natAt values 1 1)) ∧
      l.maxRenewals = min 15 (natAt values 2 1) ∧ l.rate = min 2500 (natAt values 3 2) ∧
      l.cap = natAt values 5 2 ∧ l.grace = min 14 (natAt values 7 1)) ∧
    (∀ b : BlockId, 4 ≤ b.val → b.val < 12 → values.length = 8 → ∀ e, ∃ marks,
      entryOf b e values = .calendar marks ∧ (entryOf b e values).octets = values ∧
      ∀ j, j < 64 → marks.getLsbD j = (values.getD (j / 8) 0).getLsbD (j % 8)) ∧
    (values.length = 6 → ∀ e, e < 16 → ∃ p : PatronClass, entryOf 12 e values = .patronClass p ∧
      p.threshold = max 1 (min 999999 (natAt values 0 4)) ∧ p.discount = min 100 (natAt values 4 1) ∧
      p.maxHolds = min 50 (natAt values 5 1)) ∧
    (values.length = 2 → entryOf 12 16 values = .windowBase (max 1 (natAt values 0 2)))

/-! ## Unit management (chapter 11) -/

/-- SET_DAY takes a day not below the county day, and refuses 0 and an earlier one; SET_OVERRIDE takes its three values
and refuses any other (R187, R188). -/
def Obligations.SetDayAndOverride : Prop :=
  ∀ (s : State) (seq value : Octet) (day : Day), Manageable s →
    (day = 0 → exec (.setDay seq day) s = .next (answer seq 0x03 .badValue [] (counted s))) ∧
    (day ≠ 0 → s.um.day.toNat ≤ day.toNat → exec (.setDay seq day) s =
      .next (answer seq 0x03 .done [] { counted s with um := { s.um with day := day } })) ∧
    (day ≠ 0 → day.toNat < s.um.day.toNat →
      exec (.setDay seq day) s = .next (answer seq 0x03 .dayBackward [] (counted s))) ∧
    (∀ o, value = 0 ∧ o = Override.localKinds ∨ value = 1 ∧ o = .relayAll ∨ value = 2 ∧ o = .refuseAll →
      exec (.setOverride seq value) s =
        .next (answer seq 0x04 .done [] { counted s with um := { s.um with override := o } })) ∧
    (3 ≤ value.toNat → exec (.setOverride seq value) s = .next (answer seq 0x04 .badValue [] (counted s)))

/-- QUIESCE, RESUME_SERVICE and FLUSH_CACHE by the service state; the unit that becomes idle while QUIESCING becomes
QUIESCED and answers the pending QUIESCE, as when the deadline ends its last busy context (R81, R189, R190). -/
def Obligations.QuiesceResumeFlush : Prop :=
  (∀ (s : State) (q : Octet),
    let quiesced := answer q 0x05 .done [] { s with um := { s.um with service := .quiesced, pendingQuiesce := none } }
    (s.um.service = .quiescing → s.um.pendingQuiesce = some q → Idle s → settleQuiesce s = quiesced) ∧
    (s.um.service ≠ .quiescing ∨ ¬ Idle s → settleQuiesce s = s) ∧
    ∀ c x, s.powered = true → s.um.service = .quiescing → s.um.pendingQuiesce = some q → s.txn c = some x →
      x.state ≠ .commit → (∀ d, d ≠ c → s.txn d = none) → (∀ i, (s.slot i).fill = none) → s.fu.waiting = [] →
      ∃ t : State, exec (.transactionDeadline c) s = .next t ∧ t.um = quiesced.um ∧ t.bli = quiesced.bli ∧ Idle t) ∧
  ∀ (s : State) (seq : Octet), Manageable s →
    (s.um.service = .normal → Idle s → exec (.quiesce seq) s =
      .next (answer seq 0x05 .done [] { counted s with um := { s.um with service := .quiesced } })) ∧
    (s.um.service = .normal → ¬ Idle s → exec (.quiesce seq) s =
      .next { counted s with um := { s.um with service := .quiescing, pendingQuiesce := some seq } }) ∧
    (s.um.service = .quiescing → exec (.quiesce seq) s = .next (answer seq 0x05 .busy [] (counted s))) ∧
    (s.um.service = .quiesced → exec (.quiesce seq) s = .next (answer seq 0x05 .done [] (counted s))) ∧
    (s.um.service ≠ .quiescing → exec (.resumeService seq) s = .next (answer seq 0x06 .done []
      { counted s with um := { s.um with service := .normal, pendingQuiesce := none } })) ∧
    (∀ q, s.um.service = .quiescing → s.um.pendingQuiesce = some q → exec (.resumeService seq) s =
      .next (answer seq 0x06 .done [] (answer q 0x05 .cancelled []
        { counted s with um := { s.um with service := .normal, pendingQuiesce := none } }))) ∧
    (s.um.service ≠ .quiesced →
      exec (.flushCache seq) s = .next (answer seq 0x07 .notQuiesced [] (counted s))) ∧
    (s.um.service = .quiesced → ∃ t : State, exec (.flushCache seq) s = .next (answer seq 0x07 .done [] t) ∧
      t = { counted s with rc := t.rc } ∧
      ∀ k n, t.entry k n = .empty ∧ (t.pool k).queue = [] ∧ (t.pool k).lru = (s.pool k).lru ∧
        (t.pool k).entries.length = (s.pool k).entries.length)

/-- READ_STATUS changes nothing but its own reply, whose block is 58 octets, each field in its place; READ_COUNTERS reports
the 44 counters in the order of R22, R39 and R192, its own frame counted already, and clears them when asked (R82, R183,
R191, R192, R202). A counter's advance moves that counter alone, by 1, and stops at 65,535 (00 Counters). -/
def Obligations.StatusAndCountersReports : Prop :=
  let laneOrder := fun c : LaneCounters =>
    [c.framesTaken, c.nils, c.misses, c.badCharacters, c.truncated, c.addressErrors, c.breaks, c.repliesLost]
  let linkOrder := fun c : LinkCounters =>
    [c.framesTaken, c.crcLength, c.wrongUnit, c.unknownKind, c.relaysDropped, c.lateTags]
  let txnOrder := fun c : TxnCounters =>
    [c.accepted, c.committed, c.refused, c.failed, c.regathers, c.ruleWaits]
  let up := fun v : Counter => if v = 65535 then v else v + 1
  (∀ (c : LaneCounters) (k : LaneCounter), laneOrder (c.advance k) = List.zipWith (fun j v => if j = k then up v else v)
    [.framesTaken, .nils, .misses, .badCharacters, .truncated, .addressErrors, .breaks, .repliesLost] (laneOrder c)) ∧
  (∀ (c : LinkCounters) (k : LinkCounter), linkOrder (c.advance k) = List.zipWith (fun j v => if j = k then up v else v)
    [.framesTaken, .crcLength, .wrongUnit, .unknownKind, .relaysDropped, .lateTags] (linkOrder c)) ∧
  (∀ (c : TxnCounters) (k : TxnCounter), txnOrder (c.advance k) = List.zipWith (fun j v => if j = k then up v else v)
    [.accepted, .committed, .refused, .failed, .regathers, .ruleWaits] (txnOrder c)) ∧
  ∀ (s : State) (seq clearAfter : Octet), Manageable s →
    (∃ block, exec (.readStatus seq) s = .next (answer seq 0x08 .done block (counted s)) ∧ block.length = 58 ∧
      natAt block 0 2 = s.um.day.toNat ∧
      block.getD 2 0 = (match s.um.service with
        | .normal => 0
        | .quiescing => 1
        | .quiesced => 2) ∧
      block.getD 3 0 = (match s.um.override with
        | .localKinds => 0
        | .relayAll => 1
        | .refuseAll => 2) ∧
      block.getD 4 0 = (match s.um.cause with
        | .line => 1
        | .command => 2) ∧
      block.getD 5 0 = s.bli.unitNumber.setWidth 8 ∧
      (block.getD 6 0).toNat = busyContexts s ∧ (block.getD 7 0).toNat = slotsInUse s ∧
      (PoolShape s →
        natAt block 8 2 = s.rc.patron.entries.countP (fun e => decide (e ≠ .empty)) ∧
        natAt block 10 2 = s.rc.title.entries.countP (fun e => decide (e ≠ .empty)) ∧
        natAt block 12 2 = s.rc.item.entries.countP (fun e => decide (e ≠ .empty))) ∧
      (∀ i : LaneId, (block.getD (14 + 10 * i.val) 0) = (match (s.lane i).mode with
          | .isolated => 0
          | .serve => 1
          | .starting _ => 2) ∧ (block.getD (15 + 10 * i.val) 0).toNat = (s.lane i).rate.val ∧
        ∀ d : DropId, (block.getD (16 + 10 * i.val + d.val) 0).toNat = (match ((s.lane i).dropRec d).enrolment with
            | .off => 0
            | .served => 1
            | .relayed => 2) + (if ((s.lane i).dropRec d).presence = .absent then 4 else 0)) ∧
      (s.rs.operation = none → block.getD 54 0 = 0 ∧ block.getD 55 0 = 0 ∧ block.getD 56 0 = 0) ∧
      (∀ o, s.rs.operation = some o → block.getD 54 0 = 1 ∧
        block.getD 55 0 = (match o.kind with
          | .clear => 1
          | .write .. => 2
          | .close => 3) ∧ (block.getD 56 0).toNat = o.block.val) ∧
      (block.getD 57 0).toNat = (if s.rs.writeError = true then 1 else 0) + (if s.rs.sequenceError = true then 2 else 0)) ∧
    (∃ report t, exec (.readCounters seq clearAfter) s = .next (answer seq 0x09 .done report t) ∧
      report.length = 88 ∧
      (∀ i : LaneId, ∀ j, j < 8 → natAt report (16 * i.val + 2 * j) 2 =
        ((laneOrder (s.lane i).counters).getD j 0).toNat) ∧
      (∀ j, j < 6 → natAt report (64 + 2 * j) 2 = ((linkOrder (counted s).bli.counters).getD j 0).toNat) ∧
      (∀ j, j < 6 → natAt report (76 + 2 * j) 2 = ((txnOrder s.dct.counters).getD j 0).toNat) ∧
      (clearAfter = 0 → t = counted s) ∧
      (clearAfter ≠ 0 → (∀ i : LaneId, t.lane i = { s.lane i with counters := LaneCounters.zero }) ∧
        t.bli = { (counted s).bli with counters := LinkCounters.zero } ∧ t.dct.counters = TxnCounters.zero ∧
        t.dct.contexts = s.dct.contexts ∧ t.um = s.um ∧ t.rs = s.rs ∧ t.rc = s.rc ∧ t.fu = s.fu ∧ t.cu = s.cu ∧
        t.au = s.au))

/-- UNKNOWN_COMMAND is answered BAD_VALUE and has no other effect; a MGMT frame that arrives with 16 replies held or owed
is discarded without a reply (R185, R202). That the discarded frame is counted under frames taken is the model's choice
(log entry 22). -/
def Obligations.UnknownAndUntakenCommands : Prop :=
  (∀ (s : State) (seq code : Octet) (args : List Octet), Manageable s →
    (Instr.unknownCommand seq code args).wellFormed = true →
    exec (.unknownCommand seq code args) s = .next (answer seq code .badValue [] (counted s))) ∧
  (∀ (s : State) (c : Instr) (tag : Tag) (payload : List Octet), Listening s → 16 ≤ repliesOwed s →
    c.wellFormed = true → encodeFrame c = some (0x26, tag, payload) → exec c s = .next (counted s))

/-- A management reply joins the tail of the reply list; when no MGMT_REPLY is held for the line the oldest is offered,
so the replies leave in the order they were produced (R185). -/
def Obligations.RepliesLeaveInOrder : Prop :=
  ∀ (s : State) (seq command : Octet) (result : ResultCode) (fields : List Octet),
    (s.um.replyOnLine = true → answer seq command result fields s =
      { s with um := { s.um with replies := s.um.replies ++ [⟨seq, command, result, fields⟩] } }) ∧
    (s.um.replyOnLine = false → s.um.replies = [] → answer seq command result fields s =
      { s with um := { s.um with replyOnLine := true }
               bli := lineWith s.bli (s.bli.held ++ [.mgmtReply seq command result fields]) }) ∧
    (∀ r rs, s.um.replyOnLine = false → s.um.replies = r :: rs → answer seq command result fields s =
      { s with um := { s.um with replyOnLine := true, replies := rs ++ [⟨seq, command, result, fields⟩] }
               bli := lineWith s.bli (s.bli.held ++ [.mgmtReply r.seq r.command r.result r.fields]) })

/-! ## Invariants that every step keeps -/

/-- The state after reset meets every invariant below; its unit number is that of straps all low, the model's choice (log
entry 3). -/
def Obligations.ResetMeetsInvariants : Prop :=
  RelayShare State.reset ∧ ReplyQueues State.reset ∧ LineShares State.reset ∧ PoolShape State.reset ∧
    StoreShape State.reset ∧ LaneShapes State.reset ∧ RepliesBounded State.reset ∧ TransmitterShape State.reset ∧
    InFlight State.reset ∧ KeysOnce State.reset ∧ WaitOnce State.reset ∧
    State.reset.bli.unitNumber ≠ 0

/-- Every step keeps each sending block's frames within its fixed number (R34, R35, R86, R109, R185), and the
transmitter's position within the frame in transmission (R24). -/
def Obligations.LineSharesKept : Prop :=
  (∀ s t : State, LineShares s → step s = .next t → LineShares t) ∧
    ∀ s t : State, TransmitterShape s → step s = .next t → TransmitterShape t

/-- Every step keeps each lane's reply queue at no more than 16 replies of 2 to 62 characters, and keeps each lane's turn
and assembly buffer in shape, so that the buffer never holds more than 64 characters (R1, R14, R20, R21), and keeps at
most 2 transactions of one drop of a lane in flight, under different kiosk tags (R43, R61). -/
def Obligations.LaneBoundsKept : Prop :=
  (∀ s t : State, ReplyQueues s → step s = .next t → ReplyQueues t) ∧
    (∀ s t : State, LaneShapes s → step s = .next t → LaneShapes t) ∧
    ∀ s t : State, InFlight s → step s = .next t → InFlight t

/-- The pools have 128, 64 and 256 entries, and their records 4, 8 and 1 segments (R62). Every step keeps each pool's entries
in number and each entry's one place in the order of use, and keeps the block of a
running operation INCOMPLETE and every block's number of entries (R62, R69, R169, R171); for any key it keeps at most one
entry FILLING or VALID, each fill with a FILLING entry of its own (R105); and it keeps each context at most once on a wait
list and on an allocation queue (R67, R70). -/
def Obligations.TableShapesKept : Prop :=
  RecordKind.order.map RecordKind.poolSize = [128, 64, 256] ∧ RecordKind.order.map RecordKind.segments = [4, 8, 1] ∧
    RecordKind.order = [.patron, .title, .item] ∧
  (∀ s t : State, PoolShape s → step s = .next t → PoolShape t) ∧
    (∀ s t : State, StoreShape s → step s = .next t → StoreShape t) ∧
    (∀ s t : State, KeysOnce s → step s = .next t → KeysOnce t) ∧
    ∀ s t : State, WaitOnce s → step s = .next t → WaitOnce t

/-- Every step keeps the replies held and owed at no more than 16 (R184, R185). -/
def Obligations.RepliesBoundedKept : Prop := ∀ s t : State, RepliesBounded s → step s = .next t → RepliesBounded t

/-- Every step keeps the unit number in 1 to 63. A well-formed command other than RESET_LINE and RESET_UNIT that finds the
receiver between frames and hears its delimiter in its place keeps the unit number itself, and the county day from falling,
and so does a step with no command waiting (R30, R187). A LINK_FRAME_ERROR is left out of this: behind a boundary found
inside its octets they may hold several frames, a RESET_UNIT and a SET_DAY among them. -/
def Obligations.UnitNumberAndDayKept : Prop :=
  ∀ s t : State, step s = .next t → (s.bli.unitNumber ≠ 0 → t.bli.unitNumber ≠ 0) ∧
    ((∀ c ∈ s.pending.head?, c.wellFormed = true ∧ (∀ octets, c ≠ .linkFrameError octets) ∧
        (∀ straps, c ≠ .resetLine straps) ∧ ∀ seq straps, c ≠ .resetUnit seq straps) →
      s.bli.assembly = [] → aligned s.bli = true →
      t.bli.unitNumber = s.bli.unitNumber ∧ s.um.day.toNat ≤ t.um.day.toNat)
end

