-- ==== Sys2Proof/Laws/Frames.lean ====
section
/-! SUPPORT. Octets, numbers and frame payloads: what is written high octet first is read back, and each place of a
payload layout reads the field that was put there (R195, R201). -/

namespace Sys2Proof.Machine

/-! ## Numbers in octets -/

@[simp] theorem octet_toNat (n : Nat) : (octet n).toNat = n % 256 := by simp [octet]

@[simp] theorem beOctets_length (w n : Nat) : (beOctets w n).length = w := by
  induction w generalizing n with
  | zero => rfl
  | succ w ih => simp [beOctets, ih]

/-- A number written in some octets and read back is that number, less what does not fit. -/
theorem beNat_beOctets (w n : Nat) : beNat (beOctets w n) = n % 256 ^ w := by
  induction w generalizing n with
  | zero => simp [beOctets, beNat, Nat.mod_one]
  | succ w ih =>
    simp only [beOctets, beNat, beOctets_length, ih, octet_toNat]
    rw [pow_succ, Nat.mod_mul, Nat.add_comm, Nat.mul_comm]

/-- The octets of the middle of three runs. -/
theorem octetsAt_append (a b c : List Octet) : octetsAt (a ++ b ++ c) a.length b.length = b := by
  apply List.ext_getElem
  · simp [octetsAt]
  · intro i h1 h2
    simp [octetsAt, List.getD_eq_getElem?_getD, List.getElem?_append_left, List.getElem?_append_right, h2]

/-- The number spelled by the middle of three runs. -/
theorem natAt_append (a b c : List Octet) (n m : Nat) (hn : n = a.length) (hm : m = b.length) :
    natAt (a ++ b ++ c) n m = beNat b := by
  subst hn hm; simp only [natAt]; rw [octetsAt_append]

/-- A number written between two runs is read back. -/
theorem natAt_beOctets (a c : List Octet) (n w x : Nat) (hn : n = a.length) :
    natAt (a ++ beOctets w x ++ c) n w = x % 256 ^ w := by
  rw [natAt_append a _ c n w hn (by simp), beNat_beOctets]

/-- One octet after a run is read back. -/
theorem getD_append_cons (a b : List Octet) (n : Nat) (h : n = a.length) (x : Octet) :
    (a ++ x :: b).getD n 0 = x := by
  subst h; simp [List.getD_eq_getElem?_getD]

/-- A key written between two runs is read back. -/
theorem keyAt_append (k : Key) (a c : List Octet) (n : Nat) (h : n = a.length) :
    keyAt (a ++ beOctets 4 k.toNat ++ c) n = k := by
  unfold keyAt
  rw [natAt_beOctets a c n 4 _ h]
  apply BitVec.eq_of_toNat_eq
  have : k.toNat < 2 ^ 32 := k.isLt
  simp only [BitVec.toNat_ofNat]; omega

end Sys2Proof.Machine

namespace Sys2Proof

open Sys2Proof.Machine

/-- A version written between two runs is read back. -/
theorem versionAt_append (v : Version) (a c : List Octet) (n : Nat) (h : n = a.length) :
    versionAt (a ++ beOctets 4 v.toNat ++ c) n = v := keyAt_append v a c n h

/-- A day in two octets, put together again. -/
theorem day_append (day : Day) : (octet (day.toNat / 256) ++ octet day.toNat : BitVec 16) = day := by
  apply BitVec.eq_of_toNat_eq
  have := day.isLt
  rw [BitVec.toNat_append, ← Nat.shiftLeft_add_eq_or_of_lt (octet day.toNat).isLt, Nat.shiftLeft_eq, octet_toNat,
    octet_toNat]
  omega

theorem versions_length (vs : List Version) : (vs.flatMap fun v => beOctets 4 v.toNat).length = 4 * vs.length := by
  induction vs with
  | nil => rfl
  | cons v vs ih => rw [List.flatMap_cons, List.length_append, ih, beOctets_length, List.length_cons]; omega

/-- The versions of a RESULT, written in 4 octets each, are read back. -/
theorem versionsFrom_flatMap (vs : List Version) : versionsFrom (vs.flatMap fun v => beOctets 4 v.toNat) = vs := by
  apply List.ext_getElem
  · simp only [versionsFrom, List.length_map, List.length_range, versions_length]; omega
  · intro i h1 h2
    simp only [versionsFrom, List.getElem_map, List.getElem_range]
    have e : vs = vs.take i ++ vs[i] :: vs.drop (i + 1) := by
      rw [← List.drop_eq_getElem_cons h2, List.take_append_drop]
    have f : (vs.flatMap fun v => beOctets 4 v.toNat) =
        ((vs.take i).flatMap fun v => beOctets 4 v.toNat) ++ beOctets 4 (vs[i]).toNat ++
          ((vs.drop (i + 1)).flatMap fun v => beOctets 4 v.toNat) := by
      conv_lhs => rw [e]
      rw [List.flatMap_append, List.flatMap_cons, List.append_assoc]
    rw [f]
    apply versionAt_append
    rw [versions_length, List.length_take]; omega

end Sys2Proof
end

