-- ==== Sys2Proof/Laws/Keeps.lean ====
section
/-! SUPPORT. What a step can do, said once: a property that the part's operations keep is kept by every command and
every step. An invariant is proved by giving its `Keeps`, one operation at a time. -/

namespace Sys2Proof.Machine

/-- A property of the state that every operation a command is made of keeps. The receiver's phase, bits, assembly,
escape mark and counters are free to change, and so is the queue of commands. -/
structure Keeps (P : State → Prop) : Prop where
  queue : ∀ s q, P s → P { s with pending := q }
  receiver : ∀ s b, P s → b.txQueue = s.bli.txQueue → b.transmitting = s.bli.transmitting → b.sent = s.bli.sent →
    b.unitNumber = s.bli.unitNumber → P { s with bli := b }
  octet : ∀ s, P s → P (octetTime s)
  reset : ∀ phase straps cause s, P s → P (resetAll phase straps cause s)
  power : ∀ s, P s → P (losePower s)
  breakEnd : ∀ i s, P s → P (s.mapLane i Lane.breakEnd)
  gapEnd : ∀ i s, P s → P (s.mapLane i Lane.gapEnd)
  turnStart : ∀ i s, P s → P (s.mapLane i Lane.turnStart)
  transmitEnd : ∀ i s, P s → P (s.mapLane i Lane.transmitEnd)
  frameGapOut : ∀ i s, P s → P (s.mapLane i Lane.frameGapOut)
  quietEnd : ∀ i s, P s → P (s.mapLane i Lane.quietEnd)
  windowOut : ∀ i s, P s → P (s.mapLane i Lane.windowOut)
  heldStands : ∀ i s, P s → P (s.mapLane i Lane.heldStands)
  character : ∀ i x s, P s → P (takeCharacter i x s)
  lineBreak : ∀ i s, P s → P (takeBreak i s)
  reply : ∀ i d body s, P s → P (offerReply i d body s)
  segment : ∀ tag kind key v i fl data s, P s → P (takeSegment tag kind key v i fl data s)
  absent : ∀ tag s, P s → P (takeAbsent tag s)
  defer : ∀ tag code s, P s → P (takeDefer tag code s)
  notice : ∀ kind key v s, P s → P (takeInvalidate kind key v s)
  result : ∀ tag a o vs s, P s → P (takeResult tag a o vs s)
  delayEnd : ∀ i s, P s → P (endDelay i s)
  fetchOut : ∀ i s, P s → P (fetchTimerOut i s)
  commitOut : ∀ c s, P s → P (commitTimerOut c s)
  deadline : ∀ c s, P s → P (deadlineFalls c s)
  sent : ∀ s, P s → P (endFrame s)
  decision : ∀ d s, P s → P (takeDecision d s)
  setLane : ∀ q a b c s, P s → repliesOwed s < 16 → P (manageSetLane q a b c s)
  setDrop : ∀ q a b c s, P s → repliesOwed s < 16 → P (manageSetDrop q a b c s)
  setDay : ∀ q d s, P s → repliesOwed s < 16 → P (manageSetDay q d s)
  setOverride : ∀ q v s, P s → repliesOwed s < 16 → P (manageSetOverride q v s)
  quiesce : ∀ q s, P s → repliesOwed s < 16 → P (manageQuiesce q s)
  resumeService : ∀ q s, P s → repliesOwed s < 16 → P (manageResumeService q s)
  flushCache : ∀ q s, P s → repliesOwed s < 16 → P (manageFlushCache q s)
  readCounters : ∀ q c s, P s → repliesOwed s < 16 → P (manageReadCounters q c s)
  answered : ∀ q c r fs s, P s → repliesOwed s < 16 → P (answer q c r fs s)
  tableClear : ∀ q b s, P s → repliesOwed s < 16 → P (takeTableClear q b s)
  tableWrite : ∀ q b e vs s, P s → repliesOwed s < 16 → P (takeTableWrite q b e vs s)
  tableClose : ∀ q b s, P s → repliesOwed s < 16 → P (takeTableClose q b s)
  tableAbort : ∀ q s, P s → repliesOwed s < 16 → P (takeTableAbort q s)
  tableStatusClear : ∀ q s, P s → repliesOwed s < 16 → P (takeTableStatusClear q s)
  clearDone : ∀ s, P s → P (clearCompletes s)
  writeDone : ∀ s, P s → P (writeCompletes s)
  closeDone : ∀ s, P s → P (closeCompletes s)

namespace Keeps

variable {P : State → Prop}

theorem count (k : Keeps P) (c : LinkCounter) (s : State) (h : P s) : P (s.countLink c) :=
  k.receiver s _ h rfl rfl rfl rfl

theorem mgmt (k : State → State) (s : State) (h : P s) (f : P s → repliesOwed s < 16 → P (k s)) :
    P (takeMgmt k s) := by
  unfold takeMgmt; split
  · exact h
  · exact f h (by omega)

theorem relayDown (k : Keeps P) (lane drop : Octet) (body : List Octet) (s : State) (h : P s) :
    P (takeRelayDown lane drop body s) := by
  unfold takeRelayDown; split
  · exact k.reply _ _ _ _ h
  · exact k.count _ _ h

theorem tableRead (k : Keeps P) (q b e : Octet) (s : State) (h : P s) (r : repliesOwed s < 16) :
    P (takeTableRead q b e s) := by
  unfold takeTableRead; repeat' split
  all_goals exact k.answered _ _ _ _ _ h r

/-- A good frame's block keeps what its operations keep. -/
theorem steer (k : Keeps P) (c : Instr) (s : State) (h : P s) : P (Machine.steer c s) := by
  cases c
  case relayDown => exact k.relayDown _ _ _ _ h
  case segment => exact k.segment _ _ _ _ _ _ _ _ h
  case absent => exact k.absent _ _ h
  case defer => exact k.defer _ _ _ h
  case invalidate => exact k.notice _ _ _ _ h
  case result => exact k.result _ _ _ _ _ h
  case setLane => exact mgmt _ _ h (k.setLane _ _ _ _ _)
  case setDrop => exact mgmt _ _ h (k.setDrop _ _ _ _ _)
  case setDay => exact mgmt _ _ h (k.setDay _ _ _)
  case setOverride => exact mgmt _ _ h (k.setOverride _ _ _)
  case quiesce => exact mgmt _ _ h (k.quiesce _ _)
  case resumeService => exact mgmt _ _ h (k.resumeService _ _)
  case flushCache => exact mgmt _ _ h (k.flushCache _ _)
  case readStatus => exact mgmt _ _ h (k.answered _ _ _ _ _)
  case readCounters => exact mgmt _ _ h (k.readCounters _ _ _)
  case resetUnit => exact mgmt _ _ h fun h _ => k.reset _ _ _ _ h
  case unknownCommand => exact mgmt _ _ h (k.answered _ _ _ _ _)
  case tableClear => exact mgmt _ _ h (k.tableClear _ _ _)
  case tableWrite => exact mgmt _ _ h (k.tableWrite _ _ _ _ _)
  case tableClose => exact mgmt _ _ h (k.tableClose _ _ _)
  case tableAbort => exact mgmt _ _ h (k.tableAbort _ _)
  case tableRead => exact mgmt _ _ h (k.tableRead _ _ _ _)
  case tableStatusClear => exact mgmt _ _ h (k.tableStatusClear _ _)
  all_goals exact h

theorem checkFrame (k : Keeps P) (content : List Octet) (s : State) (h : P s) : P (Machine.checkFrame content s) := by
  unfold Machine.checkFrame; split
  · exact k.count _ _ h
  · split
    · exact k.steer _ _ (k.count _ _ h)
    · exact k.count _ _ h

/-- Taking an octet leaves the transmitter and the unit number alone. -/
theorem takeOctet_fixed (b : Bli) (o : Octet) : (b.takeOctet o).1.txQueue = b.txQueue ∧
    (b.takeOctet o).1.transmitting = b.transmitting ∧ (b.takeOctet o).1.sent = b.sent ∧
    (b.takeOctet o).1.unitNumber = b.unitNumber := by
  have add : ∀ v, (b.addOctet v).txQueue = b.txQueue ∧ (b.addOctet v).transmitting = b.transmitting ∧
      (b.addOctet v).sent = b.sent ∧ (b.addOctet v).unitNumber = b.unitNumber := by
    intro v; unfold Bli.addOctet; split <;> exact ⟨rfl, rfl, rfl, rfl⟩
  unfold Bli.takeOctet; repeat' split
  all_goals first
    | exact ⟨rfl, rfl, rfl, rfl⟩
    | exact add _

theorem receiveOctet (k : Keeps P) (s : State) (o : Octet) (h : P s) : P (Machine.receiveOctet s o) := by
  obtain ⟨a, b, c, d⟩ := takeOctet_fixed s.bli o
  have h' := k.receiver s (s.bli.takeOctet o).1 h a b c d
  unfold Machine.receiveOctet; dsimp only; split
  · exact k.checkFrame _ _ h'
  · exact h'

theorem withBits (k : Keeps P) (s : State) (bits : List Bool) (h : P s) : P (s.withBits bits) :=
  k.receiver s _ h rfl rfl rfl rfl

theorem receiveBit (k : Keeps P) (s : State) (b : Bool) (h : P s) : P (Machine.receiveBit s b) := by
  unfold Machine.receiveBit; dsimp only; repeat' split
  · exact k.withBits _ _ h
  · exact k.receiver _ _ h rfl rfl rfl rfl
  · exact k.withBits _ _ h
  · exact k.withBits _ _ (k.receiveOctet _ _ (k.withBits _ _ h))
  · exact k.receiveOctet _ _ (k.withBits _ _ h)

theorem foldl {α : Type} (f : State → α → State) (g : ∀ s a, P s → P (f s a)) (l : List α) (s : State) (h : P s) :
    P (l.foldl f s) := by
  induction l generalizing s with
  | nil => exact h
  | cons a l ih => exact ih _ (g s a h)

theorem line (k : Keeps P) (os : List Octet) (s : State) (h : P s) : P (os.foldl Machine.receiveLine s) :=
  foldl _ (fun t o h => foldl _ k.receiveBit (octetBits o) t h) os _ h

theorem openFrame (k : Keeps P) (s : State) (h : P s) : P (Machine.openFrame s) :=
  foldl _ k.receiveBit (octetBits 0xA5) s h

theorem receiveOctets (k : Keeps P) (os : List Octet) (s : State) (h : P s) : P (Machine.receiveOctets os s) :=
  k.line os _ (k.openFrame s h)

theorem arrive (k : Keeps P) (i : Instr) (f : State → State) (s : State) (h : P s)
    (g : ∀ t, P t → P (f t)) : P (Machine.arrive i f s) := by
  have h' := k.openFrame s h
  unfold Machine.arrive; dsimp only; repeat' split
  · exact h'
  · exact g _ (k.count _ _ h')
  · exact k.count _ _ h'
  · exact k.line _ _ h'

theorem live (f : State → State) (s : State) (h : P s) (g : P s → P (f s)) : P (Machine.live f s) := by
  unfold Machine.live; split
  · exact g h
  · exact h

/-- Every command keeps what its operations keep. -/
theorem exec (k : Keeps P) (c : Instr) (s t : State) (h : P s) (e : Machine.exec c s = .next t) : P t := by
  have frame : ∀ i d : Instr, P (Machine.live (Machine.arrive i (Machine.steer d)) s) := fun i d =>
    live _ _ h fun h => k.arrive i _ s h fun _ => k.steer d _
  cases c <;> injection e with e <;> subst e
  case resetLine => exact k.reset _ _ _ _ h
  case powerLoss => exact live _ _ h (k.power s)
  case breakEnd => exact live _ _ h (k.breakEnd _ s)
  case gapEnd => exact live _ _ h (k.gapEnd _ s)
  case turnStart => exact live _ _ h (k.turnStart _ s)
  case laneTransmitEnd => exact live _ _ h (k.transmitEnd _ s)
  case laneCharacter => exact live _ _ h (k.character _ _ s)
  case frameGapTimeout => exact live _ _ h (k.frameGapOut _ s)
  case quietWaitEnd => exact live _ _ h (k.quietEnd _ s)
  case answerWindowTimeout => exact live _ _ h (k.windowOut _ s)
  case heldCharacterStands => exact live _ _ h (k.heldStands _ s)
  case breakReceived => exact live _ _ h (k.lineBreak _ s)
  case linkFrameError => exact live _ _ h (k.receiveOctets _ s)
  case deferDelayEnd => exact live _ _ h (k.delayEnd _ s)
  case fetchTimeout => exact live _ _ h (k.fetchOut _ s)
  case commitTimeout => exact live _ _ h (k.commitOut _ s)
  case transactionDeadline => exact live _ _ h (k.deadline _ s)
  case transmitFrameEnd => exact live _ _ h (k.sent s)
  case renew => exact live _ _ h (k.decision _ s)
  case pay => exact live _ _ h (k.decision _ s)
  case account => exact live _ _ h (k.decision _ s)
  case hold => exact live _ _ h (k.decision _ s)
  case cancel => exact live _ _ h (k.decision _ s)
  case suspend => exact live _ _ h (k.decision _ s)
  case resume => exact live _ _ h (k.decision _ s)
  case clearComplete => exact live _ _ h (k.clearDone s)
  case writeComplete => exact live _ _ h (k.writeDone s)
  case closeComplete => exact live _ _ h (k.closeDone s)
  case octetBoundaryFound =>
    refine live _ _ h fun h => ?_
    unfold findBoundary; split
    · exact k.receiver _ _ h rfl rfl rfl rfl
    · exact h
  case relayDown a b c => exact frame _ (.relayDown a b c)
  case segment a b c d e f g => exact frame _ (.segment a b c d e f g)
  case absent a => exact frame _ (.absent a)
  case defer a b => exact frame _ (.defer a b)
  case invalidate a b c => exact frame _ (.invalidate a b c)
  case result a b c d => exact frame _ (.result a b c d)
  case setLane a b c d => exact frame _ (.setLane a b c d)
  case setDrop a b c d => exact frame _ (.setDrop a b c d)
  case setDay a b => exact frame _ (.setDay a b)
  case setOverride a b => exact frame _ (.setOverride a b)
  case quiesce a => exact frame _ (.quiesce a)
  case resumeService a => exact frame _ (.resumeService a)
  case flushCache a => exact frame _ (.flushCache a)
  case readStatus a => exact frame _ (.readStatus a)
  case readCounters a b => exact frame _ (.readCounters a b)
  case resetUnit a b => exact frame _ (.resetUnit a b)
  case unknownCommand a b c => exact frame _ (decodeMgmt s.bli.unitNumber a b c)
  case tableClear a b => exact frame _ (.tableClear a b)
  case tableWrite a b c d => exact frame _ (.tableWrite a b c d)
  case tableClose a b => exact frame _ (.tableClose a b)
  case tableAbort a => exact frame _ (.tableAbort a)
  case tableRead a b c => exact frame _ (.tableRead a b c)
  case tableStatusClear a => exact frame _ (.tableStatusClear a)

/-- Every step keeps what the operations keep. -/
theorem step (k : Keeps P) (s t : State) (h : P s) (e : Machine.step s = .next t) : P t := by
  unfold Machine.step at e; split at e
  · injection e with e; subst e; exact live _ _ h (k.octet s)
  · exact k.exec _ _ _ (k.queue s _ h) e

end Keeps

end Sys2Proof.Machine
end

