-- ==== Sys2Proof/Laws/State.lean ====
section
/-! SUPPORT. The small lemmas of the state's updates: each update leaves every other field as it was, and reading what
was written gives it back. -/

namespace Sys2Proof.Machine

/-! ## Fields an update leaves alone -/

section Frames
variable (s : State)

@[simp] theorem State.setLane_powered (i : LaneId) (l : Lane) : (s.setLane i l).powered = s.powered := rfl
@[simp] theorem State.setLane_bli (i : LaneId) (l : Lane) : (s.setLane i l).bli = s.bli := rfl
@[simp] theorem State.setLane_dct (i : LaneId) (l : Lane) : (s.setLane i l).dct = s.dct := rfl
@[simp] theorem State.setLane_rc (i : LaneId) (l : Lane) : (s.setLane i l).rc = s.rc := rfl
@[simp] theorem State.setLane_fu (i : LaneId) (l : Lane) : (s.setLane i l).fu = s.fu := rfl
@[simp] theorem State.setLane_cu (i : LaneId) (l : Lane) : (s.setLane i l).cu = s.cu := rfl
@[simp] theorem State.setLane_au (i : LaneId) (l : Lane) : (s.setLane i l).au = s.au := rfl
@[simp] theorem State.setLane_rs (i : LaneId) (l : Lane) : (s.setLane i l).rs = s.rs := rfl
@[simp] theorem State.setLane_um (i : LaneId) (l : Lane) : (s.setLane i l).um = s.um := rfl
@[simp] theorem State.setLane_pending (i : LaneId) (l : Lane) : (s.setLane i l).pending = s.pending := rfl

@[simp] theorem State.mapLane_powered (i : LaneId) (f : Lane → Lane) : (s.mapLane i f).powered = s.powered := rfl
@[simp] theorem State.mapLane_bli (i : LaneId) (f : Lane → Lane) : (s.mapLane i f).bli = s.bli := rfl
@[simp] theorem State.mapLane_dct (i : LaneId) (f : Lane → Lane) : (s.mapLane i f).dct = s.dct := rfl
@[simp] theorem State.mapLane_rc (i : LaneId) (f : Lane → Lane) : (s.mapLane i f).rc = s.rc := rfl
@[simp] theorem State.mapLane_fu (i : LaneId) (f : Lane → Lane) : (s.mapLane i f).fu = s.fu := rfl
@[simp] theorem State.mapLane_cu (i : LaneId) (f : Lane → Lane) : (s.mapLane i f).cu = s.cu := rfl
@[simp] theorem State.mapLane_au (i : LaneId) (f : Lane → Lane) : (s.mapLane i f).au = s.au := rfl
@[simp] theorem State.mapLane_rs (i : LaneId) (f : Lane → Lane) : (s.mapLane i f).rs = s.rs := rfl
@[simp] theorem State.mapLane_um (i : LaneId) (f : Lane → Lane) : (s.mapLane i f).um = s.um := rfl
@[simp] theorem State.mapLane_pending (i : LaneId) (f : Lane → Lane) : (s.mapLane i f).pending = s.pending := rfl

@[simp] theorem State.setCtx_powered (c : CtxId) (x : Context) : (s.setCtx c x).powered = s.powered := rfl
@[simp] theorem State.setCtx_lanes (c : CtxId) (x : Context) : (s.setCtx c x).lanes = s.lanes := rfl
@[simp] theorem State.setCtx_bli (c : CtxId) (x : Context) : (s.setCtx c x).bli = s.bli := rfl
@[simp] theorem State.setCtx_rc (c : CtxId) (x : Context) : (s.setCtx c x).rc = s.rc := rfl
@[simp] theorem State.setCtx_fu (c : CtxId) (x : Context) : (s.setCtx c x).fu = s.fu := rfl
@[simp] theorem State.setCtx_cu (c : CtxId) (x : Context) : (s.setCtx c x).cu = s.cu := rfl
@[simp] theorem State.setCtx_au (c : CtxId) (x : Context) : (s.setCtx c x).au = s.au := rfl
@[simp] theorem State.setCtx_rs (c : CtxId) (x : Context) : (s.setCtx c x).rs = s.rs := rfl
@[simp] theorem State.setCtx_um (c : CtxId) (x : Context) : (s.setCtx c x).um = s.um := rfl
@[simp] theorem State.setCtx_pending (c : CtxId) (x : Context) : (s.setCtx c x).pending = s.pending := rfl

@[simp] theorem State.setTxn_powered (c : CtxId) (t : Option Txn) : (s.setTxn c t).powered = s.powered := rfl
@[simp] theorem State.setTxn_lanes (c : CtxId) (t : Option Txn) : (s.setTxn c t).lanes = s.lanes := rfl
@[simp] theorem State.setTxn_bli (c : CtxId) (t : Option Txn) : (s.setTxn c t).bli = s.bli := rfl
@[simp] theorem State.setTxn_rc (c : CtxId) (t : Option Txn) : (s.setTxn c t).rc = s.rc := rfl
@[simp] theorem State.setTxn_fu (c : CtxId) (t : Option Txn) : (s.setTxn c t).fu = s.fu := rfl
@[simp] theorem State.setTxn_cu (c : CtxId) (t : Option Txn) : (s.setTxn c t).cu = s.cu := rfl
@[simp] theorem State.setTxn_au (c : CtxId) (t : Option Txn) : (s.setTxn c t).au = s.au := rfl
@[simp] theorem State.setTxn_rs (c : CtxId) (t : Option Txn) : (s.setTxn c t).rs = s.rs := rfl
@[simp] theorem State.setTxn_um (c : CtxId) (t : Option Txn) : (s.setTxn c t).um = s.um := rfl
@[simp] theorem State.setTxn_pending (c : CtxId) (t : Option Txn) : (s.setTxn c t).pending = s.pending := rfl

@[simp] theorem State.mapTxn_powered (c : CtxId) (f : Txn → Txn) : (s.mapTxn c f).powered = s.powered := rfl
@[simp] theorem State.mapTxn_lanes (c : CtxId) (f : Txn → Txn) : (s.mapTxn c f).lanes = s.lanes := rfl
@[simp] theorem State.mapTxn_bli (c : CtxId) (f : Txn → Txn) : (s.mapTxn c f).bli = s.bli := rfl
@[simp] theorem State.mapTxn_rc (c : CtxId) (f : Txn → Txn) : (s.mapTxn c f).rc = s.rc := rfl
@[simp] theorem State.mapTxn_fu (c : CtxId) (f : Txn → Txn) : (s.mapTxn c f).fu = s.fu := rfl
@[simp] theorem State.mapTxn_cu (c : CtxId) (f : Txn → Txn) : (s.mapTxn c f).cu = s.cu := rfl
@[simp] theorem State.mapTxn_au (c : CtxId) (f : Txn → Txn) : (s.mapTxn c f).au = s.au := rfl
@[simp] theorem State.mapTxn_rs (c : CtxId) (f : Txn → Txn) : (s.mapTxn c f).rs = s.rs := rfl
@[simp] theorem State.mapTxn_um (c : CtxId) (f : Txn → Txn) : (s.mapTxn c f).um = s.um := rfl
@[simp] theorem State.mapTxn_pending (c : CtxId) (f : Txn → Txn) : (s.mapTxn c f).pending = s.pending := rfl

@[simp] theorem State.countTxn_powered (c : TxnCounter) : (s.countTxn c).powered = s.powered := rfl
@[simp] theorem State.countTxn_lanes (c : TxnCounter) : (s.countTxn c).lanes = s.lanes := rfl
@[simp] theorem State.countTxn_bli (c : TxnCounter) : (s.countTxn c).bli = s.bli := rfl
@[simp] theorem State.countTxn_rc (c : TxnCounter) : (s.countTxn c).rc = s.rc := rfl
@[simp] theorem State.countTxn_fu (c : TxnCounter) : (s.countTxn c).fu = s.fu := rfl
@[simp] theorem State.countTxn_cu (c : TxnCounter) : (s.countTxn c).cu = s.cu := rfl
@[simp] theorem State.countTxn_au (c : TxnCounter) : (s.countTxn c).au = s.au := rfl
@[simp] theorem State.countTxn_rs (c : TxnCounter) : (s.countTxn c).rs = s.rs := rfl
@[simp] theorem State.countTxn_um (c : TxnCounter) : (s.countTxn c).um = s.um := rfl
@[simp] theorem State.countTxn_pending (c : TxnCounter) : (s.countTxn c).pending = s.pending := rfl

@[simp] theorem State.countLink_powered (c : LinkCounter) : (s.countLink c).powered = s.powered := rfl
@[simp] theorem State.countLink_lanes (c : LinkCounter) : (s.countLink c).lanes = s.lanes := rfl
@[simp] theorem State.countLink_dct (c : LinkCounter) : (s.countLink c).dct = s.dct := rfl
@[simp] theorem State.countLink_rc (c : LinkCounter) : (s.countLink c).rc = s.rc := rfl
@[simp] theorem State.countLink_fu (c : LinkCounter) : (s.countLink c).fu = s.fu := rfl
@[simp] theorem State.countLink_cu (c : LinkCounter) : (s.countLink c).cu = s.cu := rfl
@[simp] theorem State.countLink_au (c : LinkCounter) : (s.countLink c).au = s.au := rfl
@[simp] theorem State.countLink_rs (c : LinkCounter) : (s.countLink c).rs = s.rs := rfl
@[simp] theorem State.countLink_um (c : LinkCounter) : (s.countLink c).um = s.um := rfl
@[simp] theorem State.countLink_pending (c : LinkCounter) : (s.countLink c).pending = s.pending := rfl

@[simp] theorem State.setPool_powered (k : RecordKind) (p : Pool) : (s.setPool k p).powered = s.powered := rfl
@[simp] theorem State.setPool_lanes (k : RecordKind) (p : Pool) : (s.setPool k p).lanes = s.lanes := rfl
@[simp] theorem State.setPool_bli (k : RecordKind) (p : Pool) : (s.setPool k p).bli = s.bli := rfl
@[simp] theorem State.setPool_dct (k : RecordKind) (p : Pool) : (s.setPool k p).dct = s.dct := rfl
@[simp] theorem State.setPool_fu (k : RecordKind) (p : Pool) : (s.setPool k p).fu = s.fu := rfl
@[simp] theorem State.setPool_cu (k : RecordKind) (p : Pool) : (s.setPool k p).cu = s.cu := rfl
@[simp] theorem State.setPool_au (k : RecordKind) (p : Pool) : (s.setPool k p).au = s.au := rfl
@[simp] theorem State.setPool_rs (k : RecordKind) (p : Pool) : (s.setPool k p).rs = s.rs := rfl
@[simp] theorem State.setPool_um (k : RecordKind) (p : Pool) : (s.setPool k p).um = s.um := rfl
@[simp] theorem State.setPool_pending (k : RecordKind) (p : Pool) : (s.setPool k p).pending = s.pending := rfl

@[simp] theorem State.setEntry_powered (k : RecordKind) (n : Nat) (e : Entry) : (s.setEntry k n e).powered = s.powered := rfl
@[simp] theorem State.setEntry_lanes (k : RecordKind) (n : Nat) (e : Entry) : (s.setEntry k n e).lanes = s.lanes := rfl
@[simp] theorem State.setEntry_bli (k : RecordKind) (n : Nat) (e : Entry) : (s.setEntry k n e).bli = s.bli := rfl
@[simp] theorem State.setEntry_dct (k : RecordKind) (n : Nat) (e : Entry) : (s.setEntry k n e).dct = s.dct := rfl
@[simp] theorem State.setEntry_fu (k : RecordKind) (n : Nat) (e : Entry) : (s.setEntry k n e).fu = s.fu := rfl
@[simp] theorem State.setEntry_cu (k : RecordKind) (n : Nat) (e : Entry) : (s.setEntry k n e).cu = s.cu := rfl
@[simp] theorem State.setEntry_au (k : RecordKind) (n : Nat) (e : Entry) : (s.setEntry k n e).au = s.au := rfl
@[simp] theorem State.setEntry_rs (k : RecordKind) (n : Nat) (e : Entry) : (s.setEntry k n e).rs = s.rs := rfl
@[simp] theorem State.setEntry_um (k : RecordKind) (n : Nat) (e : Entry) : (s.setEntry k n e).um = s.um := rfl
@[simp] theorem State.setEntry_pending (k : RecordKind) (n : Nat) (e : Entry) : (s.setEntry k n e).pending = s.pending := rfl

@[simp] theorem State.touch_powered (k : RecordKind) (n : Nat) : (s.touch k n).powered = s.powered := rfl
@[simp] theorem State.touch_lanes (k : RecordKind) (n : Nat) : (s.touch k n).lanes = s.lanes := rfl
@[simp] theorem State.touch_bli (k : RecordKind) (n : Nat) : (s.touch k n).bli = s.bli := rfl
@[simp] theorem State.touch_dct (k : RecordKind) (n : Nat) : (s.touch k n).dct = s.dct := rfl
@[simp] theorem State.touch_fu (k : RecordKind) (n : Nat) : (s.touch k n).fu = s.fu := rfl
@[simp] theorem State.touch_cu (k : RecordKind) (n : Nat) : (s.touch k n).cu = s.cu := rfl
@[simp] theorem State.touch_au (k : RecordKind) (n : Nat) : (s.touch k n).au = s.au := rfl
@[simp] theorem State.touch_rs (k : RecordKind) (n : Nat) : (s.touch k n).rs = s.rs := rfl
@[simp] theorem State.touch_um (k : RecordKind) (n : Nat) : (s.touch k n).um = s.um := rfl
@[simp] theorem State.touch_pending (k : RecordKind) (n : Nat) : (s.touch k n).pending = s.pending := rfl

@[simp] theorem State.setSlot_powered (i : SlotId) (x : FillSlot) : (s.setSlot i x).powered = s.powered := rfl
@[simp] theorem State.setSlot_lanes (i : SlotId) (x : FillSlot) : (s.setSlot i x).lanes = s.lanes := rfl
@[simp] theorem State.setSlot_bli (i : SlotId) (x : FillSlot) : (s.setSlot i x).bli = s.bli := rfl
@[simp] theorem State.setSlot_dct (i : SlotId) (x : FillSlot) : (s.setSlot i x).dct = s.dct := rfl
@[simp] theorem State.setSlot_rc (i : SlotId) (x : FillSlot) : (s.setSlot i x).rc = s.rc := rfl
@[simp] theorem State.setSlot_cu (i : SlotId) (x : FillSlot) : (s.setSlot i x).cu = s.cu := rfl
@[simp] theorem State.setSlot_au (i : SlotId) (x : FillSlot) : (s.setSlot i x).au = s.au := rfl
@[simp] theorem State.setSlot_rs (i : SlotId) (x : FillSlot) : (s.setSlot i x).rs = s.rs := rfl
@[simp] theorem State.setSlot_um (i : SlotId) (x : FillSlot) : (s.setSlot i x).um = s.um := rfl
@[simp] theorem State.setSlot_pending (i : SlotId) (x : FillSlot) : (s.setSlot i x).pending = s.pending := rfl

@[simp] theorem State.setCommitRec_powered (c : CtxId) (r : CommitRecord) : (s.setCommitRec c r).powered = s.powered := rfl
@[simp] theorem State.setCommitRec_lanes (c : CtxId) (r : CommitRecord) : (s.setCommitRec c r).lanes = s.lanes := rfl
@[simp] theorem State.setCommitRec_bli (c : CtxId) (r : CommitRecord) : (s.setCommitRec c r).bli = s.bli := rfl
@[simp] theorem State.setCommitRec_dct (c : CtxId) (r : CommitRecord) : (s.setCommitRec c r).dct = s.dct := rfl
@[simp] theorem State.setCommitRec_rc (c : CtxId) (r : CommitRecord) : (s.setCommitRec c r).rc = s.rc := rfl
@[simp] theorem State.setCommitRec_fu (c : CtxId) (r : CommitRecord) : (s.setCommitRec c r).fu = s.fu := rfl
@[simp] theorem State.setCommitRec_au (c : CtxId) (r : CommitRecord) : (s.setCommitRec c r).au = s.au := rfl
@[simp] theorem State.setCommitRec_rs (c : CtxId) (r : CommitRecord) : (s.setCommitRec c r).rs = s.rs := rfl
@[simp] theorem State.setCommitRec_um (c : CtxId) (r : CommitRecord) : (s.setCommitRec c r).um = s.um := rfl
@[simp] theorem State.setCommitRec_pending (c : CtxId) (r : CommitRecord) : (s.setCommitRec c r).pending = s.pending := rfl

@[simp] theorem State.mapUm_powered (f : Um → Um) : (s.mapUm f).powered = s.powered := rfl
@[simp] theorem State.mapUm_lanes (f : Um → Um) : (s.mapUm f).lanes = s.lanes := rfl
@[simp] theorem State.mapUm_bli (f : Um → Um) : (s.mapUm f).bli = s.bli := rfl
@[simp] theorem State.mapUm_dct (f : Um → Um) : (s.mapUm f).dct = s.dct := rfl
@[simp] theorem State.mapUm_rc (f : Um → Um) : (s.mapUm f).rc = s.rc := rfl
@[simp] theorem State.mapUm_fu (f : Um → Um) : (s.mapUm f).fu = s.fu := rfl
@[simp] theorem State.mapUm_cu (f : Um → Um) : (s.mapUm f).cu = s.cu := rfl
@[simp] theorem State.mapUm_au (f : Um → Um) : (s.mapUm f).au = s.au := rfl
@[simp] theorem State.mapUm_rs (f : Um → Um) : (s.mapUm f).rs = s.rs := rfl
@[simp] theorem State.mapUm_pending (f : Um → Um) : (s.mapUm f).pending = s.pending := rfl

@[simp] theorem State.mapRs_powered (f : RuleStore → RuleStore) : (s.mapRs f).powered = s.powered := rfl
@[simp] theorem State.mapRs_lanes (f : RuleStore → RuleStore) : (s.mapRs f).lanes = s.lanes := rfl
@[simp] theorem State.mapRs_bli (f : RuleStore → RuleStore) : (s.mapRs f).bli = s.bli := rfl
@[simp] theorem State.mapRs_dct (f : RuleStore → RuleStore) : (s.mapRs f).dct = s.dct := rfl
@[simp] theorem State.mapRs_rc (f : RuleStore → RuleStore) : (s.mapRs f).rc = s.rc := rfl
@[simp] theorem State.mapRs_fu (f : RuleStore → RuleStore) : (s.mapRs f).fu = s.fu := rfl
@[simp] theorem State.mapRs_cu (f : RuleStore → RuleStore) : (s.mapRs f).cu = s.cu := rfl
@[simp] theorem State.mapRs_au (f : RuleStore → RuleStore) : (s.mapRs f).au = s.au := rfl
@[simp] theorem State.mapRs_um (f : RuleStore → RuleStore) : (s.mapRs f).um = s.um := rfl
@[simp] theorem State.mapRs_pending (f : RuleStore → RuleStore) : (s.mapRs f).pending = s.pending := rfl

@[simp] theorem State.withBits_powered (bits : List Bool) : (s.withBits bits).powered = s.powered := rfl
@[simp] theorem State.withBits_lanes (bits : List Bool) : (s.withBits bits).lanes = s.lanes := rfl
@[simp] theorem State.withBits_dct (bits : List Bool) : (s.withBits bits).dct = s.dct := rfl
@[simp] theorem State.withBits_rc (bits : List Bool) : (s.withBits bits).rc = s.rc := rfl
@[simp] theorem State.withBits_fu (bits : List Bool) : (s.withBits bits).fu = s.fu := rfl
@[simp] theorem State.withBits_cu (bits : List Bool) : (s.withBits bits).cu = s.cu := rfl
@[simp] theorem State.withBits_au (bits : List Bool) : (s.withBits bits).au = s.au := rfl
@[simp] theorem State.withBits_rs (bits : List Bool) : (s.withBits bits).rs = s.rs := rfl
@[simp] theorem State.withBits_um (bits : List Bool) : (s.withBits bits).um = s.um := rfl
@[simp] theorem State.withBits_pending (bits : List Bool) : (s.withBits bits).pending = s.pending := rfl

@[simp] theorem octetTime_powered : (octetTime s).powered = s.powered := rfl
@[simp] theorem octetTime_lanes : (octetTime s).lanes = s.lanes := rfl
@[simp] theorem octetTime_dct : (octetTime s).dct = s.dct := rfl
@[simp] theorem octetTime_rc : (octetTime s).rc = s.rc := rfl
@[simp] theorem octetTime_fu : (octetTime s).fu = s.fu := rfl
@[simp] theorem octetTime_cu : (octetTime s).cu = s.cu := rfl
@[simp] theorem octetTime_au : (octetTime s).au = s.au := rfl
@[simp] theorem octetTime_rs : (octetTime s).rs = s.rs := rfl
@[simp] theorem octetTime_um : (octetTime s).um = s.um := rfl
@[simp] theorem octetTime_pending : (octetTime s).pending = s.pending := rfl

@[simp] theorem State.withBits_bits (bits : List Bool) : (s.withBits bits).bli.bits = bits := rfl
@[simp] theorem State.withBits_phase (bits : List Bool) : (s.withBits bits).bli.phase = s.bli.phase := rfl
@[simp] theorem State.withBits_assembly (bits : List Bool) : (s.withBits bits).bli.assembly = s.bli.assembly := rfl
@[simp] theorem State.withBits_escape (bits : List Bool) : (s.withBits bits).bli.escape = s.bli.escape := rfl
@[simp] theorem State.withBits_txQueue (bits : List Bool) : (s.withBits bits).bli.txQueue = s.bli.txQueue := rfl
@[simp] theorem State.withBits_transmitting (bits : List Bool) : (s.withBits bits).bli.transmitting = s.bli.transmitting := rfl
@[simp] theorem State.withBits_sent (bits : List Bool) : (s.withBits bits).bli.sent = s.bli.sent := rfl
@[simp] theorem State.withBits_unitNumber (bits : List Bool) : (s.withBits bits).bli.unitNumber = s.bli.unitNumber := rfl
@[simp] theorem State.withBits_counters (bits : List Bool) : (s.withBits bits).bli.counters = s.bli.counters := rfl

@[simp] theorem State.countTxn_contexts (c : TxnCounter) :
    (s.countTxn c).dct.contexts = s.dct.contexts := rfl
@[simp] theorem State.countTxn_counters (c : TxnCounter) :
    (s.countTxn c).dct.counters = s.dct.counters.advance c := rfl
@[simp] theorem State.setCtx_counters (c : CtxId) (x : Context) :
    (s.setCtx c x).dct.counters = s.dct.counters := rfl
@[simp] theorem State.setTxn_counters (c : CtxId) (t : Option Txn) :
    (s.setTxn c t).dct.counters = s.dct.counters := rfl
@[simp] theorem State.mapTxn_counters (c : CtxId) (f : Txn → Txn) :
    (s.mapTxn c f).dct.counters = s.dct.counters := rfl
@[simp] theorem State.setSlot_waiting (i : SlotId) (x : FillSlot) : (s.setSlot i x).fu.waiting = s.fu.waiting := rfl
@[simp] theorem State.countLink_counters (c : LinkCounter) :
    (s.countLink c).bli.counters = s.bli.counters.advance c := rfl
@[simp] theorem State.countLink_phase (c : LinkCounter) : (s.countLink c).bli.phase = s.bli.phase := rfl
@[simp] theorem State.countLink_assembly (c : LinkCounter) : (s.countLink c).bli.assembly = s.bli.assembly := rfl
@[simp] theorem State.countLink_escape (c : LinkCounter) : (s.countLink c).bli.escape = s.bli.escape := rfl
@[simp] theorem State.countLink_txQueue (c : LinkCounter) : (s.countLink c).bli.txQueue = s.bli.txQueue := rfl
@[simp] theorem State.countLink_transmitting (c : LinkCounter) :
    (s.countLink c).bli.transmitting = s.bli.transmitting := rfl
@[simp] theorem State.countLink_unitNumber (c : LinkCounter) :
    (s.countLink c).bli.unitNumber = s.bli.unitNumber := rfl

/-! ## Accessors through updates of other tables -/

@[simp] theorem State.setCtx_lane (c : CtxId) (x : Context) (z : LaneId) : (s.setCtx c x).lane z = s.lane z := rfl
@[simp] theorem State.setTxn_lane (c : CtxId) (t : Option Txn) (z : LaneId) : (s.setTxn c t).lane z = s.lane z := rfl
@[simp] theorem State.mapTxn_lane (c : CtxId) (f : Txn → Txn) (z : LaneId) : (s.mapTxn c f).lane z = s.lane z := rfl
@[simp] theorem State.countTxn_lane (c : TxnCounter) (z : LaneId) : (s.countTxn c).lane z = s.lane z := rfl
@[simp] theorem State.countLink_lane (c : LinkCounter) (z : LaneId) : (s.countLink c).lane z = s.lane z := rfl
@[simp] theorem State.setPool_lane (k : RecordKind) (p : Pool) (z : LaneId) : (s.setPool k p).lane z = s.lane z := rfl
@[simp] theorem State.setEntry_lane (k : RecordKind) (n : Nat) (e : Entry) (z : LaneId) : (s.setEntry k n e).lane z = s.lane z := rfl
@[simp] theorem State.touch_lane (k : RecordKind) (n : Nat) (z : LaneId) : (s.touch k n).lane z = s.lane z := rfl
@[simp] theorem State.setSlot_lane (i : SlotId) (x : FillSlot) (z : LaneId) : (s.setSlot i x).lane z = s.lane z := rfl
@[simp] theorem State.setCommitRec_lane (c : CtxId) (r : CommitRecord) (z : LaneId) : (s.setCommitRec c r).lane z = s.lane z := rfl
@[simp] theorem State.mapUm_lane (f : Um → Um) (z : LaneId) : (s.mapUm f).lane z = s.lane z := rfl
@[simp] theorem State.mapRs_lane (f : RuleStore → RuleStore) (z : LaneId) : (s.mapRs f).lane z = s.lane z := rfl

@[simp] theorem State.setLane_ctx (i : LaneId) (l : Lane) (z : CtxId) : (s.setLane i l).ctx z = s.ctx z := rfl
@[simp] theorem State.mapLane_ctx (i : LaneId) (f : Lane → Lane) (z : CtxId) : (s.mapLane i f).ctx z = s.ctx z := rfl
@[simp] theorem State.countTxn_ctx (c : TxnCounter) (z : CtxId) : (s.countTxn c).ctx z = s.ctx z := rfl
@[simp] theorem State.countLink_ctx (c : LinkCounter) (z : CtxId) : (s.countLink c).ctx z = s.ctx z := rfl
@[simp] theorem State.setPool_ctx (k : RecordKind) (p : Pool) (z : CtxId) : (s.setPool k p).ctx z = s.ctx z := rfl
@[simp] theorem State.setEntry_ctx (k : RecordKind) (n : Nat) (e : Entry) (z : CtxId) : (s.setEntry k n e).ctx z = s.ctx z := rfl
@[simp] theorem State.touch_ctx (k : RecordKind) (n : Nat) (z : CtxId) : (s.touch k n).ctx z = s.ctx z := rfl
@[simp] theorem State.setSlot_ctx (i : SlotId) (x : FillSlot) (z : CtxId) : (s.setSlot i x).ctx z = s.ctx z := rfl
@[simp] theorem State.setCommitRec_ctx (c : CtxId) (r : CommitRecord) (z : CtxId) : (s.setCommitRec c r).ctx z = s.ctx z := rfl
@[simp] theorem State.mapUm_ctx (f : Um → Um) (z : CtxId) : (s.mapUm f).ctx z = s.ctx z := rfl
@[simp] theorem State.mapRs_ctx (f : RuleStore → RuleStore) (z : CtxId) : (s.mapRs f).ctx z = s.ctx z := rfl

@[simp] theorem State.setLane_txn (i : LaneId) (l : Lane) (z : CtxId) : (s.setLane i l).txn z = s.txn z := rfl
@[simp] theorem State.mapLane_txn (i : LaneId) (f : Lane → Lane) (z : CtxId) : (s.mapLane i f).txn z = s.txn z := rfl
@[simp] theorem State.countTxn_txn (c : TxnCounter) (z : CtxId) : (s.countTxn c).txn z = s.txn z := rfl
@[simp] theorem State.countLink_txn (c : LinkCounter) (z : CtxId) : (s.countLink c).txn z = s.txn z := rfl
@[simp] theorem State.setPool_txn (k : RecordKind) (p : Pool) (z : CtxId) : (s.setPool k p).txn z = s.txn z := rfl
@[simp] theorem State.setEntry_txn (k : RecordKind) (n : Nat) (e : Entry) (z : CtxId) : (s.setEntry k n e).txn z = s.txn z := rfl
@[simp] theorem State.touch_txn (k : RecordKind) (n : Nat) (z : CtxId) : (s.touch k n).txn z = s.txn z := rfl
@[simp] theorem State.setSlot_txn (i : SlotId) (x : FillSlot) (z : CtxId) : (s.setSlot i x).txn z = s.txn z := rfl
@[simp] theorem State.setCommitRec_txn (c : CtxId) (r : CommitRecord) (z : CtxId) : (s.setCommitRec c r).txn z = s.txn z := rfl
@[simp] theorem State.mapUm_txn (f : Um → Um) (z : CtxId) : (s.mapUm f).txn z = s.txn z := rfl
@[simp] theorem State.mapRs_txn (f : RuleStore → RuleStore) (z : CtxId) : (s.mapRs f).txn z = s.txn z := rfl

@[simp] theorem State.setLane_slot (i : LaneId) (l : Lane) (z : SlotId) : (s.setLane i l).slot z = s.slot z := rfl
@[simp] theorem State.mapLane_slot (i : LaneId) (f : Lane → Lane) (z : SlotId) : (s.mapLane i f).slot z = s.slot z := rfl
@[simp] theorem State.setCtx_slot (c : CtxId) (x : Context) (z : SlotId) : (s.setCtx c x).slot z = s.slot z := rfl
@[simp] theorem State.setTxn_slot (c : CtxId) (t : Option Txn) (z : SlotId) : (s.setTxn c t).slot z = s.slot z := rfl
@[simp] theorem State.mapTxn_slot (c : CtxId) (f : Txn → Txn) (z : SlotId) : (s.mapTxn c f).slot z = s.slot z := rfl
@[simp] theorem State.countTxn_slot (c : TxnCounter) (z : SlotId) : (s.countTxn c).slot z = s.slot z := rfl
@[simp] theorem State.countLink_slot (c : LinkCounter) (z : SlotId) : (s.countLink c).slot z = s.slot z := rfl
@[simp] theorem State.setPool_slot (k : RecordKind) (p : Pool) (z : SlotId) : (s.setPool k p).slot z = s.slot z := rfl
@[simp] theorem State.setEntry_slot (k : RecordKind) (n : Nat) (e : Entry) (z : SlotId) : (s.setEntry k n e).slot z = s.slot z := rfl
@[simp] theorem State.touch_slot (k : RecordKind) (n : Nat) (z : SlotId) : (s.touch k n).slot z = s.slot z := rfl
@[simp] theorem State.setCommitRec_slot (c : CtxId) (r : CommitRecord) (z : SlotId) : (s.setCommitRec c r).slot z = s.slot z := rfl
@[simp] theorem State.mapUm_slot (f : Um → Um) (z : SlotId) : (s.mapUm f).slot z = s.slot z := rfl
@[simp] theorem State.mapRs_slot (f : RuleStore → RuleStore) (z : SlotId) : (s.mapRs f).slot z = s.slot z := rfl

@[simp] theorem State.setLane_commitRec (i : LaneId) (l : Lane) (z : CtxId) : (s.setLane i l).commitRec z = s.commitRec z := rfl
@[simp] theorem State.mapLane_commitRec (i : LaneId) (f : Lane → Lane) (z : CtxId) : (s.mapLane i f).commitRec z = s.commitRec z := rfl
@[simp] theorem State.setCtx_commitRec (c : CtxId) (x : Context) (z : CtxId) : (s.setCtx c x).commitRec z = s.commitRec z := rfl
@[simp] theorem State.setTxn_commitRec (c : CtxId) (t : Option Txn) (z : CtxId) : (s.setTxn c t).commitRec z = s.commitRec z := rfl
@[simp] theorem State.mapTxn_commitRec (c : CtxId) (f : Txn → Txn) (z : CtxId) : (s.mapTxn c f).commitRec z = s.commitRec z := rfl
@[simp] theorem State.countTxn_commitRec (c : TxnCounter) (z : CtxId) : (s.countTxn c).commitRec z = s.commitRec z := rfl
@[simp] theorem State.countLink_commitRec (c : LinkCounter) (z : CtxId) : (s.countLink c).commitRec z = s.commitRec z := rfl
@[simp] theorem State.setPool_commitRec (k : RecordKind) (p : Pool) (z : CtxId) : (s.setPool k p).commitRec z = s.commitRec z := rfl
@[simp] theorem State.setEntry_commitRec (k : RecordKind) (n : Nat) (e : Entry) (z : CtxId) : (s.setEntry k n e).commitRec z = s.commitRec z := rfl
@[simp] theorem State.touch_commitRec (k : RecordKind) (n : Nat) (z : CtxId) : (s.touch k n).commitRec z = s.commitRec z := rfl
@[simp] theorem State.setSlot_commitRec (i : SlotId) (x : FillSlot) (z : CtxId) : (s.setSlot i x).commitRec z = s.commitRec z := rfl
@[simp] theorem State.mapUm_commitRec (f : Um → Um) (z : CtxId) : (s.mapUm f).commitRec z = s.commitRec z := rfl
@[simp] theorem State.mapRs_commitRec (f : RuleStore → RuleStore) (z : CtxId) : (s.mapRs f).commitRec z = s.commitRec z := rfl

@[simp] theorem State.setLane_pool (i : LaneId) (l : Lane) (z : RecordKind) : (s.setLane i l).pool z = s.pool z := rfl
@[simp] theorem State.mapLane_pool (i : LaneId) (f : Lane → Lane) (z : RecordKind) : (s.mapLane i f).pool z = s.pool z := rfl
@[simp] theorem State.setCtx_pool (c : CtxId) (x : Context) (z : RecordKind) : (s.setCtx c x).pool z = s.pool z := rfl
@[simp] theorem State.setTxn_pool (c : CtxId) (t : Option Txn) (z : RecordKind) : (s.setTxn c t).pool z = s.pool z := rfl
@[simp] theorem State.mapTxn_pool (c : CtxId) (f : Txn → Txn) (z : RecordKind) : (s.mapTxn c f).pool z = s.pool z := rfl
@[simp] theorem State.countTxn_pool (c : TxnCounter) (z : RecordKind) : (s.countTxn c).pool z = s.pool z := rfl
@[simp] theorem State.countLink_pool (c : LinkCounter) (z : RecordKind) : (s.countLink c).pool z = s.pool z := rfl
@[simp] theorem State.setSlot_pool (i : SlotId) (x : FillSlot) (z : RecordKind) : (s.setSlot i x).pool z = s.pool z := rfl
@[simp] theorem State.setCommitRec_pool (c : CtxId) (r : CommitRecord) (z : RecordKind) : (s.setCommitRec c r).pool z = s.pool z := rfl
@[simp] theorem State.mapUm_pool (f : Um → Um) (z : RecordKind) : (s.mapUm f).pool z = s.pool z := rfl
@[simp] theorem State.mapRs_pool (f : RuleStore → RuleStore) (z : RecordKind) : (s.mapRs f).pool z = s.pool z := rfl

end Frames

/-! ## Reading what was written -/

@[simp] theorem State.lane_setLane (s : State) (i : LaneId) (l : Lane) : (s.setLane i l).lane i = l := by
  simp [State.lane, State.setLane]

theorem State.lane_setLane_ne (s : State) {i j : LaneId} (l : Lane) (h : i ≠ j) :
    (s.setLane i l).lane j = s.lane j := by
  have : i.val ≠ j.val := fun e => h (Fin.ext e)
  simp [State.lane, State.setLane, this]

@[simp] theorem State.lane_mapLane (s : State) (i : LaneId) (f : Lane → Lane) :
    (s.mapLane i f).lane i = f (s.lane i) := by simp [State.mapLane]

theorem State.lane_mapLane_ne (s : State) {i j : LaneId} (f : Lane → Lane) (h : i ≠ j) :
    (s.mapLane i f).lane j = s.lane j := State.lane_setLane_ne s _ h

@[simp] theorem State.ctx_setCtx (s : State) (c : CtxId) (x : Context) : (s.setCtx c x).ctx c = x := by
  simp [State.ctx, State.setCtx]

theorem State.ctx_setCtx_ne (s : State) {c d : CtxId} (x : Context) (h : c ≠ d) :
    (s.setCtx c x).ctx d = s.ctx d := by
  have : c.val ≠ d.val := fun e => h (Fin.ext e)
  simp [State.ctx, State.setCtx, this]

@[simp] theorem State.txn_setCtx (s : State) (c : CtxId) (x : Context) : (s.setCtx c x).txn c = x.txn := by
  simp [State.txn]

theorem State.txn_setCtx_ne (s : State) {c d : CtxId} (x : Context) (h : c ≠ d) :
    (s.setCtx c x).txn d = s.txn d := by simp [State.txn, State.ctx_setCtx_ne s x h]

@[simp] theorem State.txn_setTxn (s : State) (c : CtxId) (t : Option Txn) : (s.setTxn c t).txn c = t := by
  simp [State.setTxn]

theorem State.txn_setTxn_ne (s : State) {c d : CtxId} (t : Option Txn) (h : c ≠ d) :
    (s.setTxn c t).txn d = s.txn d := State.txn_setCtx_ne s _ h

@[simp] theorem State.txn_mapTxn (s : State) (c : CtxId) (f : Txn → Txn) :
    (s.mapTxn c f).txn c = (s.txn c).map f := by simp [State.mapTxn]

theorem State.txn_mapTxn_ne (s : State) {c d : CtxId} (f : Txn → Txn) (h : c ≠ d) :
    (s.mapTxn c f).txn d = s.txn d := State.txn_setTxn_ne s _ h

/-- A context that is FREE stays FREE under a change of any busy context. -/
theorem State.txn_mapTxn_none (s : State) (c d : CtxId) (f : Txn → Txn) (h : s.txn d = none) :
    (s.mapTxn c f).txn d = none := by
  by_cases e : c = d
  · subst e; simp [h]
  · rw [State.txn_mapTxn_ne s f e, h]

@[simp] theorem State.slot_setSlot (s : State) (i : SlotId) (x : FillSlot) : (s.setSlot i x).slot i = x := by
  simp [State.slot, State.setSlot]

theorem State.slot_setSlot_ne (s : State) {i j : SlotId} (x : FillSlot) (h : i ≠ j) :
    (s.setSlot i x).slot j = s.slot j := by
  have : i.val ≠ j.val := fun e => h (Fin.ext e)
  simp [State.slot, State.setSlot, this]

@[simp] theorem State.commitRec_setCommitRec (s : State) (c : CtxId) (r : CommitRecord) :
    (s.setCommitRec c r).commitRec c = r := by simp [State.commitRec, State.setCommitRec]

theorem State.commitRec_setCommitRec_ne (s : State) {c d : CtxId} (r : CommitRecord) (h : c ≠ d) :
    (s.setCommitRec c r).commitRec d = s.commitRec d := by
  have : c.val ≠ d.val := fun e => h (Fin.ext e)
  simp [State.commitRec, State.setCommitRec, this]

@[simp] theorem State.pool_setPool (s : State) (k : RecordKind) (p : Pool) : (s.setPool k p).pool k = p := by
  cases k <;> rfl

theorem State.pool_setPool_ne (s : State) {k l : RecordKind} (p : Pool) (h : k ≠ l) :
    (s.setPool k p).pool l = s.pool l := by
  cases k <;> cases l <;> first | rfl | exact absurd rfl h

@[simp] theorem State.setPool_setPool (s : State) (k : RecordKind) (p q : Pool) :
    (s.setPool k p).setPool k q = s.setPool k q := by cases k <;> rfl

/-- Reading an entry that exists after writing it gives what was written. -/
theorem State.entry_setEntry (s : State) (k : RecordKind) (n : Nat) (e : Entry)
    (h : n < (s.pool k).entries.length) : (s.setEntry k n e).entry k n = e := by
  simp [State.entry, State.setEntry, Pool.entry, Pool.setEntry, h]

theorem State.entry_setEntry_ne (s : State) (k : RecordKind) {n m : Nat} (e : Entry) (h : n ≠ m) :
    (s.setEntry k n e).entry k m = s.entry k m := by
  simp [State.entry, State.setEntry, Pool.entry, Pool.setEntry, List.getElem?_set_ne h]

theorem State.entry_setEntry_kind (s : State) {k l : RecordKind} (n m : Nat) (e : Entry) (h : k ≠ l) :
    (s.setEntry k n e).entry l m = s.entry l m := by
  simp [State.entry, State.setEntry, State.pool_setPool_ne s _ h]

@[simp] theorem State.entry_touch (s : State) (k l : RecordKind) (n m : Nat) :
    (s.touch k n).entry l m = s.entry l m := by cases k <;> cases l <;> rfl

@[simp] theorem State.pool_setEntry_length (s : State) (k l : RecordKind) (n : Nat) (e : Entry) :
    ((s.setEntry k n e).pool l).entries.length = (s.pool l).entries.length := by
  cases k <;> cases l <;> simp [State.setEntry, State.pool, State.setPool, Cache.setPool, Cache.pool, Pool.setEntry]

end Sys2Proof.Machine
end

