-- ==== Sys2Proof/Laws/Line.lean ====
section
/-! SUPPORT. Bits of the line into octets (R25, R26), said once: on the boundary eight bits are one octet, so what holds
of `receiveOctet` holds of the line. -/

namespace Sys2Proof.Machine

open Sys2Proof.Safety

/-- The bits of an octet form it again. -/
@[simp] theorem octetOfBits_octetBits (o : Octet) : octetOfBits (octetBits o) = o := by revert o; decide +kernel

/-- A bit that completes no octet yet is kept. -/
theorem receiveBit_short (s : State) (b : Bool) (h : s.bli.bits.length < 7) :
    receiveBit s b = s.withBits (s.bli.bits ++ [b]) := by
  unfold receiveBit; simp only [List.length_append, List.length_singleton]; rw [if_pos (by omega)]

/-- Bits that complete no octet yet are kept. -/
theorem receiveBits_short (bs : List Bool) (s : State) (h : s.bli.bits.length + bs.length < 8) :
    bs.foldl receiveBit s = s.withBits (s.bli.bits ++ bs) := by
  induction bs generalizing s with
  | nil => simp [State.withBits]
  | cons b bs ih =>
    simp only [List.length_cons] at h
    rw [List.foldl_cons, receiveBit_short s b (by omega), ih _ (by simp [State.withBits]; omega)]
    simp [State.withBits]

/-- Eight bits on the receiver's boundary in FRAME are one octet; where it sends the receiver to HUNT, its last seven bits
stay for the hunt. -/
theorem receiveLine_frame (s : State) (o : Octet) (f : s.bli.phase = .frame) (h : s.bli.bits = []) :
    receiveLine s o = if (receiveOctet s o).bli.phase = .hunt then (receiveOctet s o).withBits ((octetBits o).drop 1)
      else receiveOctet s o := by
  have e : octetBits o = (octetBits o).take 7 ++ [o.getMsbD 7] := rfl
  have w : s.withBits [] = s := by simp [State.withBits, ← h]
  have hl : ((octetBits o).take 7).length = 7 := rfl
  unfold receiveLine
  conv_lhs => rw [e, List.foldl_append]
  rw [receiveBits_short _ s (by rw [h, hl]; simp), h, List.nil_append]
  simp only [List.foldl_cons, List.foldl_nil, receiveBit]
  have b : (s.withBits ((octetBits o).take 7)).bli.bits ++ [o.getMsbD 7] = octetBits o := rfl
  rw [b]
  have l : (octetBits o).length = 8 := rfl
  rw [if_neg (by omega)]
  have p : (s.withBits ((octetBits o).take 7)).bli.phase = .frame := f
  have v : (s.withBits ((octetBits o).take 7)).withBits [] = s := by simp [State.withBits, ← h]
  rw [p, v]; simp only [octetOfBits_octetBits]

/-- Bits that end no delimiter leave the receiver in HUNT with the last seven of all it has seen (R26). -/
theorem receiveBits_hunt (l bits : List Bool) (s : State) (p : s.bli.phase = .hunt) (n : bits.length ≤ 7)
    (h : ∀ j, j ≤ l.length → 8 ≤ bits.length + j →
      octetOfBits ((bits ++ l.take j).drop (bits.length + j - 8)) ≠ 0xA5) :
    l.foldl receiveBit (s.withBits bits) = s.withBits ((bits ++ l).drop (bits.length + l.length - 7)) := by
  induction l generalizing bits with
  | nil => rw [show bits.length + [].length - 7 = 0 by simp; omega]; simp
  | cons b l ih =>
    rw [List.foldl_cons]
    by_cases n7 : bits.length < 7
    · have e : receiveBit (s.withBits bits) b = s.withBits (bits ++ [b]) := receiveBit_short _ _ n7
      rw [e, ih _ (by simp; omega)]
      · rw [List.append_assoc, List.singleton_append]; simp only [List.length_append, List.length_cons, List.length_nil]
        rw [show bits.length + (0 + 1) + l.length - 7 = bits.length + (l.length + 1) - 7 by omega]
      · intro j hj h8
        simp only [List.length_append, List.length_cons, List.length_nil] at h8
        have := h (j + 1) (by simp; omega) (by omega)
        rw [List.append_assoc, List.singleton_append, ← List.take_succ_cons]
        simp only [List.length_append, List.length_cons, List.length_nil]
        rw [show bits.length + (0 + 1) + j - 8 = bits.length + (j + 1) - 8 by omega]; exact this
    · have n7 : bits.length = 7 := by omega
      have a := h 1 (by simp) (by omega)
      rw [n7] at a; simp only [List.take_succ_cons, List.take_zero, Nat.reduceAdd, Nat.sub_self, List.drop_zero] at a
      have e : receiveBit (s.withBits bits) b = s.withBits (bits.drop 1 ++ [b]) := by
        have q : (s.withBits bits).bli.phase = .hunt := p
        have r : (s.withBits bits).bli.bits = bits := rfl
        simp only [receiveBit, q, r, List.length_append, n7, List.length_cons, List.length_nil]
        rw [if_neg (by omega), if_neg a, List.drop_append_of_le_length (by omega)]; rfl
      rw [e, ih _ (by simp [n7])]
      · simp only [List.append_assoc, List.singleton_append, List.length_append, List.length_drop, List.length_cons,
          List.length_nil, n7]
        rw [show 7 - 1 + (0 + 1) + l.length - 7 = l.length by omega, show 7 + (l.length + 1) - 7 = 1 + l.length by omega,
          ← List.drop_drop, List.drop_append_of_le_length (l₁ := bits) (by omega)]
      · intro j hj h8
        have h8 : 1 ≤ j := by simp [n7] at h8; omega
        have := h (j + 1) (by simp; omega) (by omega)
        simp only [List.append_assoc, List.singleton_append, List.length_append, List.length_drop, List.length_cons,
          List.length_nil, n7, List.take_succ_cons] at this ⊢
        rw [show 7 - 1 + (0 + 1) + j - 8 = j - 1 by omega]
        rw [show 7 + (j + 1) - 8 = 1 + (j - 1) by omega, ← List.drop_drop, List.drop_append_of_le_length (by omega)] at this
        exact this

/-- Between frames the opening delimiter of a frame is heard, and nothing else comes of it (R26, R28). -/
theorem openFrame_listening (s : State) (h : Listening s) : openFrame s = heard s := by
  obtain ⟨-, a, e, al⟩ := h
  cases p : s.bli.phase with
  | frame =>
    have f : s.bli.bits = [] := by simpa [aligned, p] using al
    unfold openFrame
    rw [receiveLine_frame s _ p f]
    have : receiveOctet s 0xA5 = s := by simp [receiveOctet, Bli.takeOctet, p, e, a]
    rw [this, if_neg (by simp [p])]
    have b := f
    obtain ⟨_, _, ⟨_⟩⟩ := s; simp only at p b; subst p b; rfl
  | hunt =>
    obtain ⟨n, g⟩ : s.bli.bits.length ≤ 7 ∧ ∀ j, j < 8 → 8 ≤ s.bli.bits.length + j →
        octetOfBits ((s.bli.bits ++ (octetBits 0xA5).take j).drop (s.bli.bits.length + j - 8)) ≠ 0xA5 := by
      simpa only [aligned, p, Bool.and_eq_true, decide_eq_true_eq, List.all_eq_true, List.mem_range] using al
    have l : (octetBits 0xA5).take 7 ++ [(0xA5 : Octet).getMsbD 7] = octetBits 0xA5 := rfl
    have k : ((octetBits 0xA5).take 7).length = 7 := rfl
    unfold openFrame receiveLine
    have w : s.withBits s.bli.bits = s := rfl
    rw [← l, List.foldl_append, ← w, receiveBits_hunt _ _ s p n]
    · rw [k, Nat.add_sub_cancel]
      have d : ((s.bli.bits ++ (octetBits 0xA5).take 7).drop s.bli.bits.length) = (octetBits 0xA5).take 7 := by simp
      rw [d, List.foldl_cons, List.foldl_nil]
      have w : octetOfBits ((octetBits 0xA5).take 7 ++ [(0xA5 : Octet).getMsbD 7]) = 0xA5 := by decide
      simp only [receiveBit, State.withBits, p]
      rw [if_neg (by decide), if_pos w]
      simp [heard, Bli.foundBoundary, a, e]
    · intro j hj h8
      rw [k] at hj
      have := g j (by omega) h8
      rwa [List.take_take, Nat.min_eq_left (by omega)]

/-- Between frames a command's frame of a length its kind accepts is taken whole by its block (R29, R31). -/
theorem arrive_listening (i : Instr) (f : State → State) (s : State) (h : Listening s) {kind : Octet} {tag : Tag}
    {payload : List Octet} (e : encodeFrame i = some (kind, tag, payload)) (n : payload.length ≤ 480)
    (a : payloadAccepted kind payload.length = some true) : arrive i f s = f (counted s) := by
  simp only [arrive, openFrame_listening s h, e, a, n, decide_true, Bool.and_true, if_true]
  have b : (heard s).bli.onBoundary = true := by simp [heard, Bli.onBoundary]
  rw [if_pos b]; rfl

end Sys2Proof.Machine
end

