-- ==== Sys2Proof/Laws/Outside.lean ====
section
/-! SUPPORT. What the transaction machinery leaves alone. Lookups, locks, fills, decisions and commits work on
contexts, the cache, the slots, the commit records, AU's lists, the transmit queue and the reply queues; the receiver,
the rule store, Unit Management and the lanes' own state stay as they were. One lemma for each shared operation. -/

namespace Sys2Proof.Machine

/-- A lane without what other blocks give it: its reply queue and its counters. -/
def Lane.line (l : Lane) : Lane := { l with replies := [], counters := LaneCounters.zero }

/-- The part of the state that lies outside the machinery of contexts. -/
structure Outside where
  powered : Bool
  pending : List Instr
  rs : RuleStore
  um : Um
  phase : RxPhase
  assembly : List Octet
  escape : Bool
  unitNumber : BitVec 6
  lines : Vector Lane 4
deriving DecidableEq, Repr

/-- What lies outside the machinery of contexts. -/
def State.outside (s : State) : Outside :=
  ⟨s.powered, s.pending, s.rs, s.um, s.bli.phase, s.bli.assembly, s.bli.escape, s.bli.unitNumber,
   s.lanes.map Lane.line⟩

/-! ## Single updates -/

section Updates
variable (s : State)

@[simp] theorem outside_setCtx (c : CtxId) (x : Context) : (s.setCtx c x).outside = s.outside := rfl
@[simp] theorem outside_setTxn (c : CtxId) (t : Option Txn) : (s.setTxn c t).outside = s.outside := rfl
@[simp] theorem outside_mapTxn (c : CtxId) (f : Txn → Txn) : (s.mapTxn c f).outside = s.outside := rfl
@[simp] theorem outside_countTxn (c : TxnCounter) : (s.countTxn c).outside = s.outside := rfl
@[simp] theorem outside_countLink (c : LinkCounter) : (s.countLink c).outside = s.outside := rfl
@[simp] theorem outside_setPool (k : RecordKind) (p : Pool) : (s.setPool k p).outside = s.outside := rfl
@[simp] theorem outside_setEntry (k : RecordKind) (n : Nat) (e : Entry) :
    (s.setEntry k n e).outside = s.outside := rfl
@[simp] theorem outside_touch (k : RecordKind) (n : Nat) : (s.touch k n).outside = s.outside := rfl
@[simp] theorem outside_setSlot (i : SlotId) (x : FillSlot) : (s.setSlot i x).outside = s.outside := rfl
@[simp] theorem outside_setCommitRec (c : CtxId) (r : CommitRecord) :
    (s.setCommitRec c r).outside = s.outside := rfl
@[simp] theorem outside_au (a : Adjudicator) : ({ s with au := a } : State).outside = s.outside := rfl
@[simp] theorem outside_rc (r : Cache) : ({ s with rc := r } : State).outside = s.outside := rfl
@[simp] theorem outside_fu (f : FillUnit) : ({ s with fu := f } : State).outside = s.outside := rfl
@[simp] theorem outside_leaveLists (c : CtxId) : (leaveLists c s).outside = s.outside := rfl
@[simp] theorem outside_enterDecide (c : CtxId) (t : Txn) : (enterDecide c t s).outside = s.outside := rfl

end Updates

@[simp] theorem Bli.start_phase (b : Bli) : b.start.phase = b.phase := by unfold Bli.start; split <;> rfl
@[simp] theorem Bli.start_assembly (b : Bli) : b.start.assembly = b.assembly := by unfold Bli.start; split <;> rfl
@[simp] theorem Bli.start_escape (b : Bli) : b.start.escape = b.escape := by unfold Bli.start; split <;> rfl
@[simp] theorem Bli.start_unitNumber (b : Bli) : b.start.unitNumber = b.unitNumber := by
  unfold Bli.start; split <;> rfl
@[simp] theorem Bli.start_counters (b : Bli) : b.start.counters = b.counters := by unfold Bli.start; split <;> rfl

/-- Sending a frame advances no link counter. -/
@[simp] theorem sendFrame_link (f : Frame) (s : State) : (sendFrame f s).bli.counters = s.bli.counters :=
  Bli.start_counters _

@[simp] theorem outside_sendFrame (f : Frame) (s : State) : (sendFrame f s).outside = s.outside := by
  simp [State.outside, sendFrame, Bli.enqueue]

@[simp] theorem Lane.offer_line (l : Lane) (d : DropId) (body : List Octet) : (l.offer d body).line = l.line := by
  unfold Lane.offer; split_ifs <;> rfl

/-- Replacing a lane by one that differs in its reply queue and counters alone. -/
theorem outside_setLane (s : State) (i : LaneId) (l : Lane) (h : l.line = (s.lane i).line) :
    (s.setLane i l).outside = s.outside := by
  have e : (s.lanes.set i l).map Lane.line = s.lanes.map Lane.line := by
    ext j hj
    by_cases hij : i.val = j
    · subst hij; simpa [State.lane] using h
    · simp [hij]
  simp [State.outside, State.setLane, e]

@[simp] theorem outside_offerReply (i : LaneId) (d : DropId) (body : List Octet) (s : State) :
    (offerReply i d body s).outside = s.outside := outside_setLane _ _ _ (Lane.offer_line _ _ _)

@[simp] theorem outside_offerRelay (i : LaneId) (d : DropId) (body : List Octet) (s : State) :
    (offerRelay i d body s).outside = s.outside := by
  unfold offerRelay; split <;> simp

/-! ## Fills and lookups -/

@[simp] theorem outside_fetchDue (i : SlotId) (a b : Nat) (s : State) :
    (fetchDue i a b s).outside = s.outside := by
  unfold fetchDue; dsimp only; repeat' split
  all_goals simp

@[simp] theorem outside_takeUp (i : SlotId) (w : WaitingFill) (s : State) :
    (takeUp i w s).outside = s.outside := by simp [takeUp]

@[simp] theorem outside_giveFill (w : WaitingFill) (s : State) : (giveFill w s).outside = s.outside := by
  unfold giveFill; split <;> simp

@[simp] theorem outside_finishSlot (i : SlotId) (s : State) : (finishSlot i s).outside = s.outside := by
  unfold finishSlot; dsimp only; split <;> simp

@[simp] theorem outside_lookup (c : CtxId) (k : RecordKind) (key : Key) (s : State) :
    (lookup c k key s).1.outside = s.outside := by
  unfold lookup; dsimp only; repeat' split
  all_goals simp

/-! ## Contexts -/

/-- A fold of operations that each leave the outside alone. -/
theorem outside_foldl {α : Type} (f : State → α → State) (h : ∀ s a, (f s a).outside = s.outside) (l : List α)
    (s : State) : (l.foldl f s).outside = s.outside := by
  induction l generalizing s with
  | nil => rfl
  | cons a l ih => exact (ih _).trans (h s a)

@[simp] theorem outside_foldl_mapTxn {α : Type} (g : α → CtxId) (f : α → Txn → Txn) (l : List α) (s : State) :
    (l.foldl (fun s w => s.mapTxn (g w) (f w)) s).outside = s.outside :=
  outside_foldl (fun s w => s.mapTxn (g w) (f w)) (fun _ _ => rfl) l s

@[simp] theorem outside_releaseEntry (c : CtxId) (k : RecordKind) (n : Nat) (s : State) :
    (releaseEntry c k n s).1.outside = s.outside := by
  unfold releaseEntry; repeat' split
  all_goals first
    | rfl
    | exact outside_foldl_mapTxn (fun w => w) (fun _ t => t.lose k) _ _

@[simp] theorem outside_releaseNeed (c : CtxId) (t : Txn) (k : RecordKind) (s : State) :
    (releaseNeed c t k s).1.outside = s.outside := by
  unfold releaseNeed; split <;> simp

@[simp] theorem outside_releaseLock (c : CtxId) (t : Txn) (k : RecordKind) (s : State) :
    (releaseLock c t k s).1.outside = s.outside := by
  unfold releaseLock; split <;> simp

@[simp] theorem outside_releaseAll (c : CtxId) (t : Txn) (s : State) :
    (releaseAll c t s).1.outside = s.outside := by simp [releaseAll, eachKind]

@[simp] theorem outside_freeCtx (c : CtxId) (s : State) : (freeCtx c s).1.outside = s.outside := by
  unfold freeCtx; split <;> simp

@[simp] theorem outside_endCtx (c : CtxId) (code : ResultCode) (fields : List Octet) (s : State) :
    (endCtx c code fields s).1.outside = s.outside := by
  unfold endCtx; split
  · rfl
  · dsimp only; split <;> simp

@[simp] theorem outside_regather (c : CtxId) (s : State) : (regather c s).1.outside = s.outside := by
  unfold regather; repeat' split
  all_goals simp

@[simp] theorem outside_abortCtx (c : CtxId) (s : State) : (abortCtx c s).1.outside = s.outside := by
  unfold abortCtx; repeat' split
  all_goals simp

@[simp] theorem outside_abortWhere (test : Txn → Bool) (cs : List CtxId) (s : State) :
    (abortWhere test cs s).1.outside = s.outside := by
  induction cs generalizing s with
  | nil => rfl
  | cons c cs ih => unfold abortWhere; split <;> simp [ih]

@[simp] theorem outside_resettle (c : CtxId) (t : Txn) (item : Image) (s : State) :
    (resettle c t item s).1.outside = s.outside := by simp [resettle]

@[simp] theorem outside_allLocked (c : CtxId) (t : Txn) (s : State) :
    (allLocked c t s).1.outside = s.outside := by
  unfold allLocked; repeat' split
  all_goals simp

@[simp] theorem outside_requestLock (c : CtxId) (t : Txn) (k : RecordKind) (key : Key) (n : Nat) (s : State) :
    (requestLock c t k key n s).1.outside = s.outside := by
  unfold requestLock; dsimp only; repeat' split
  all_goals simp

@[simp] theorem outside_copyPatron (c : CtxId) (t : Txn) (s : State) :
    (copyPatron c t s).1.outside = s.outside := by
  unfold copyPatron; repeat' split
  all_goals simp

@[simp] theorem outside_resumeCtx (c : CtxId) (s : State) : (resumeCtx c s).1.outside = s.outside := by
  unfold resumeCtx; repeat' split
  all_goals first
    | (simp; done)
    | (rename_i heq
       have h := congrArg (fun r : State × Option Nat => r.1.outside) heq
       simp only [outside_lookup] at h
       simp [h])

@[simp] theorem outside_doTask (t : Task) (s : State) : (doTask t s).1.outside = s.outside := by
  cases t <;> simp [doTask]

/-- However many tasks an event sets off, they leave alone what lies outside the machinery of contexts. -/
@[simp] theorem outside_runTasks (fuel : Nat) (ts : List Task) (s : State) :
    (runTasks fuel ts s).outside = s.outside := by
  induction fuel generalizing ts s with
  | zero => rfl
  | succ n ih => cases ts with
    | nil => rfl
    | cons t ts => simp [runTasks, ih]

@[simp] theorem outside_offerRoom (k : RecordKind) (s : State) : (offerRoom k s).outside = s.outside :=
  outside_runTasks _ _ _

/-! ## Commits, fills and dispatch -/

@[simp] theorem outside_restartFill (i : SlotId) (f : Fill) (s : State) :
    (restartFill i f s).outside = s.outside := by simp [restartFill]

@[simp] theorem outside_setFill (i : SlotId) (f : Fill) (s : State) : (setFill i f s).outside = s.outside := rfl

@[simp] theorem outside_endBurst (i : SlotId) (f : Fill) (s : State) : (endBurst i f s).outside = s.outside := by
  simp [endBurst]

@[simp] theorem outside_completeFill (i : SlotId) (f : Fill) (v : Version) (keep : Bool) (s : State) :
    (completeFill i f v keep s).1.outside = s.outside := by
  unfold completeFill; dsimp only; split
  all_goals simp only [outside_finishSlot, outside_offerRoom]
  all_goals first
    | rfl
    | exact outside_foldl_mapTxn (fun w => w) (fun _ t => t.found f.kind f.entry false) _ _

@[simp] theorem outside_endEach (code : ResultCode) (cs : List CtxId) (s : State) :
    (endEach code cs s).1.outside = s.outside := by
  induction cs generalizing s with
  | nil => rfl
  | cons c cs ih => simp [endEach, ih]

@[simp] theorem outside_failFill (i : SlotId) (f : Fill) (code : ResultCode) (s : State) :
    (failFill i f code s).1.outside = s.outside := by simp [failFill]

@[simp] theorem outside_noteInFills (k : RecordKind) (key : Key) (v : Version) (s : State) :
    (noteInFills k key v s).outside = s.outside := rfl

@[simp] theorem outside_noteInEntry (k : RecordKind) (key : Key) (v : Version) (n : Nat) (s : State) :
    (noteInEntry k key v n s).1.outside = s.outside := by
  unfold noteInEntry; repeat' split
  all_goals rfl

@[simp] theorem outside_noteInEntries (k : RecordKind) (key : Key) (v : Version) (ns : List Nat) (s : State) :
    (noteInEntries k key v ns s).1.outside = s.outside := by
  induction ns generalizing s with
  | nil => rfl
  | cons n ns ih => simp [noteInEntries, ih]

@[simp] theorem outside_offerUpdate (c : CtxId) (f : Frame) (s : State) :
    (offerUpdate c f s).outside = s.outside := by
  unfold offerUpdate; dsimp only; split <;> simp

@[simp] theorem outside_queueUpdate (c : CtxId) (x : NewImages) (code : ResultCode) (fields : List Octet)
    (s : State) : (queueUpdate c x code fields s).outside = s.outside := by
  unfold queueUpdate; split <;> simp

@[simp] theorem outside_takeOutcome (c : CtxId) (s : State) : (takeOutcome c s).outside = s.outside := rfl

@[simp] theorem outside_mapHeldCopy (c : CtxId) (k : RecordKind) (n : Nat) (f : Copy → Copy) (s : State) :
    (mapHeldCopy c k n f s).outside = s.outside := by
  unfold mapHeldCopy; repeat' split
  all_goals rfl

@[simp] theorem outside_applyEntries (c : CtxId) (es : List (UpdateEntry × Version)) (s : State) :
    (applyEntries c es s).outside = s.outside := by
  induction es generalizing s with
  | nil => rfl
  | cons e es ih =>
    have h : (applyEntry c e.1 e.2 s).outside = s.outside := by
      unfold applyEntry; repeat' split
      all_goals simp
    simp [applyEntries, ih, h]

@[simp] theorem outside_staleEntries (c : CtxId) (es : List (UpdateEntry × Version)) (s : State) :
    (staleEntries c es s).outside = s.outside := by
  induction es generalizing s with
  | nil => rfl
  | cons e es ih => simp [staleEntries, ih]

@[simp] theorem outside_timeoutEntries (c : CtxId) (es : List UpdateEntry) (s : State) :
    (timeoutEntries c es s).outside = s.outside := by
  induction es generalizing s with
  | nil => rfl
  | cons e es ih => simp [timeoutEntries, ih]

@[simp] theorem outside_beginWait (c : CtxId) (t : Txn) (b : BlockId) (s : State) :
    (beginWait c t b s).outside = s.outside := rfl

@[simp] theorem outside_readHeld (t : Txn) (s : State) : (readHeld t s).outside = s.outside := by
  unfold readHeld; split
  · rfl
  · exact outside_foldl _ (fun s k => by unfold touchRead; split <;> rfl) _ s

@[simp] theorem outside_blockAvailable (b : BlockId) (s : State) : (blockAvailable b s).outside = s.outside := by
  simp only [blockAvailable, outside_au]
  exact outside_foldl_mapTxn (fun c => c) (fun _ t => { t with ruleWait := none }) _ _

end Sys2Proof.Machine
end

