-- ==== Sys2Proof/Laws/PerInstr.lean ====
section
/-! SUPPORT. Statements made for each command. FrameCodec: the frame a well-formed command arrives as has a payload its
kind accepts, and decodes to that command (R29, R195, R196, R201, R202). -/

namespace Sys2Proof.Laws.FrameCodec

open Sys2Proof Sys2Proof.Machine

/-- The frame of a well-formed command is accepted and decodes to it; a RESET_UNIT's straps are what the pins read. -/
def Statement (i : Instr) : Prop :=
  ∀ (kind : Octet) (tag : Tag) (payload : List Octet) (straps : BitVec 6), i.wellFormed = true →
    encodeFrame i = some (kind, tag, payload) → (∀ seq pins, i = .resetUnit seq pins → pins = straps) →
    payload.length ≤ 480 ∧ payloadAccepted kind payload.length = some true ∧
      decodeFrame straps kind tag payload = some i

/-- A command that is no frame has nothing to show. -/
theorem of_none {i : Instr} (h : encodeFrame i = none) : Statement i := by
  intro kind tag payload straps _ e; rw [h] at e; cases e

/-- A command whose frame is known has that frame to show. -/
theorem of_some {i : Instr} {k : Octet} {t : Tag} {p : List Octet} (e : encodeFrame i = some (k, t, p))
    (h : ∀ straps, i.wellFormed = true → (∀ seq pins, i = .resetUnit seq pins → pins = straps) →
      p.length ≤ 480 ∧ payloadAccepted k p.length = some true ∧ decodeFrame straps k t p = some i) :
    Statement i := by
  intro kind tag payload straps w e' r
  rw [e] at e'
  cases e'
  exact h straps w r

/-- Whatever the pins, what is no command for some is none. -/
theorem decodeMgmt_unknown {pins : BitVec 6} (straps : BitVec 6) {seq code : Octet} {args : List Octet}
    (w : decodeMgmt pins seq code args = .unknownCommand seq code args) :
    decodeMgmt straps seq code args = .unknownCommand seq code args := by
  unfold decodeMgmt at w ⊢
  dsimp only at w ⊢
  by_cases h : code = 0x0A
  · subst h
    cases args with
    | nil => cases w
    | cons a args => rfl
  · simp only [if_neg h] at w ⊢
    exact w

theorem resetLine (straps : BitVec 6) : Statement (.resetLine straps) := of_none rfl
theorem powerLoss : Statement .powerLoss := of_none rfl
theorem setLane (seq : Octet) (lane : Octet) (mode : Octet) (rate : Octet) :
    Statement (.setLane seq lane mode rate) := of_some rfl fun _ _ _ => ⟨Nat.le_of_ble_eq_true rfl, rfl, rfl⟩
theorem setDrop (seq : Octet) (lane : Octet) (drop : Octet) (enrolment : Octet) :
    Statement (.setDrop seq lane drop enrolment) := of_some rfl fun _ _ _ => ⟨Nat.le_of_ble_eq_true rfl, rfl, rfl⟩
theorem breakEnd (lane : LaneId) : Statement (.breakEnd lane) := of_none rfl
theorem gapEnd (lane : LaneId) : Statement (.gapEnd lane) := of_none rfl
theorem turnStart (lane : LaneId) : Statement (.turnStart lane) := of_none rfl
theorem laneTransmitEnd (lane : LaneId) : Statement (.laneTransmitEnd lane) := of_none rfl
theorem laneCharacter (lane : LaneId) (samples : Samples) : Statement (.laneCharacter lane samples) := of_none rfl
theorem frameGapTimeout (lane : LaneId) : Statement (.frameGapTimeout lane) := of_none rfl
theorem quietWaitEnd (lane : LaneId) : Statement (.quietWaitEnd lane) := of_none rfl
theorem answerWindowTimeout (lane : LaneId) : Statement (.answerWindowTimeout lane) := of_none rfl
theorem heldCharacterStands (lane : LaneId) : Statement (.heldCharacterStands lane) := of_none rfl
theorem breakReceived (lane : LaneId) : Statement (.breakReceived lane) := of_none rfl
theorem linkFrameError (octets : List Octet) : Statement (.linkFrameError octets) := of_none rfl
theorem relayDown (lane : Octet) (drop : Octet) (body : List Octet) :
    Statement (.relayDown lane drop body) := of_some rfl fun straps w _ => by
    have w : body.length ≤ 478 := of_decide_eq_true w
    refine ⟨by simp only [List.length_cons]; omega, ?_, rfl⟩
    simp only [payloadAccepted, List.length_cons]
    exact congrArg some (decide_eq_true ⟨by omega, by omega⟩)
theorem segment (tag : Tag) (kind : Octet) (key : Key) (version : Version) (index : Octet) (flags : Octet) (data : List Octet) :
    Statement (.segment tag kind key version index flags data) := of_some rfl fun straps w _ => by
    have w : data.length = 32 := of_decide_eq_true w
    have l : (beOctets 4 key.toNat ++ beOctets 4 version.toNat ++ index :: flags :: data).length = 42 := by simp [w]
    have a := keyAt_append key [] (beOctets 4 version.toNat ++ index :: flags :: data) 0 rfl
    have b := versionAt_append version (beOctets 4 key.toNat) (index :: flags :: data) 4 (by simp)
    have c := getD_append_cons (beOctets 4 key.toNat ++ beOctets 4 version.toNat) (flags :: data) 8 (by simp) index
    have d := getD_append_cons (beOctets 4 key.toNat ++ beOctets 4 version.toNat ++ [index]) data 9 (by simp) flags
    have e : (beOctets 4 key.toNat ++ beOctets 4 version.toNat ++ [index, flags] ++ data).drop 10 = data :=
      List.drop_left' (by simp)
    simp only [List.nil_append, List.append_assoc, List.cons_append] at l a b c d e
    simp only [List.cons_append, List.append_assoc]
    generalize beOctets 4 key.toNat ++ (beOctets 4 version.toNat ++ index :: flags :: data) = rest at l a b c d e ⊢
    rw [List.length_cons, l]
    refine ⟨Nat.le_of_ble_eq_true rfl, rfl, ?_⟩
    show (if rest.length = 42 then some (Instr.segment tag kind (keyAt rest 0) (versionAt rest 4) (rest.getD 8 0)
      (rest.getD 9 0) (rest.drop 10)) else none) = _
    rw [if_pos l, a, b, c, d, e]
theorem absent (tag : Tag) : Statement (.absent tag) := of_some rfl fun _ _ _ => ⟨Nat.le_of_ble_eq_true rfl, rfl, rfl⟩
theorem defer (tag : Tag) (code : Octet) :
    Statement (.defer tag code) := of_some rfl fun _ _ _ => ⟨Nat.le_of_ble_eq_true rfl, rfl, rfl⟩
theorem deferDelayEnd (slot : SlotId) : Statement (.deferDelayEnd slot) := of_none rfl
theorem fetchTimeout (slot : SlotId) : Statement (.fetchTimeout slot) := of_none rfl
theorem invalidate (kind : Octet) (key : Key) (version : Version) :
    Statement (.invalidate kind key version) := of_some rfl fun straps _ _ => by
    have l : (beOctets 4 key.toNat ++ beOctets 4 version.toNat).length = 8 := by simp
    have a := keyAt_append key [] (beOctets 4 version.toNat) 0 rfl
    have b := versionAt_append version (beOctets 4 key.toNat) [] 4 (by simp)
    simp only [List.nil_append, List.append_nil] at a b
    simp only [List.cons_append]
    generalize beOctets 4 key.toNat ++ beOctets 4 version.toNat = rest at l a b ⊢
    rw [List.length_cons, l]
    refine ⟨Nat.le_of_ble_eq_true rfl, rfl, ?_⟩
    show (if rest.length = 8 then some (Instr.invalidate kind (keyAt rest 0) (versionAt rest 4)) else none) = _
    rw [if_pos l, a, b]
theorem result (tag : Tag) (attempt : Octet) (outcome : Octet) (versions : List Version) :
    Statement (.result tag attempt outcome versions) := of_some rfl fun straps w _ => by
    have w : versions.length ≤ 3 := of_decide_eq_true w
    have l := versions_length versions
    have v := versionsFrom_flatMap versions
    generalize (versions.flatMap fun v => beOctets 4 v.toNat) = rest at l v ⊢
    have n : versions.length = 0 ∨ versions.length = 1 ∨ versions.length = 2 ∨ versions.length = 3 := by omega
    refine ⟨by simp only [List.length_cons, l]; omega, ?_, ?_⟩
    · simp only [List.length_cons, l]
      rcases n with n | n | n | n <;> rw [n] <;> rfl
    · show (if rest.length % 4 = 0 ∧ rest.length ≤ 12 then
        some (Instr.result tag attempt outcome (versionsFrom rest)) else none) = _
      rw [if_pos ⟨by omega, by omega⟩, v]
theorem commitTimeout (ctx : CtxId) : Statement (.commitTimeout ctx) := of_none rfl
theorem transactionDeadline (ctx : CtxId) : Statement (.transactionDeadline ctx) := of_none rfl
theorem transmitFrameEnd : Statement .transmitFrameEnd := of_none rfl
theorem renew : Statement .renew := of_none rfl
theorem pay : Statement .pay := of_none rfl
theorem account : Statement .account := of_none rfl
theorem hold : Statement .hold := of_none rfl
theorem cancel : Statement .cancel := of_none rfl
theorem suspend : Statement .suspend := of_none rfl
theorem resume : Statement .resume := of_none rfl
theorem setDay (seq : Octet) (day : Day) :
    Statement (.setDay seq day) := of_some rfl fun straps _ _ => ⟨Nat.le_of_ble_eq_true rfl, rfl, by
    show some (Instr.setDay seq (octet (day.toNat / 256) ++ octet (day.toNat / 1))) = _
    rw [Nat.div_one, day_append]⟩
theorem setOverride (seq : Octet) (value : Octet) :
    Statement (.setOverride seq value) := of_some rfl fun _ _ _ => ⟨Nat.le_of_ble_eq_true rfl, rfl, rfl⟩
theorem quiesce (seq : Octet) : Statement (.quiesce seq) := of_some rfl fun _ _ _ => ⟨Nat.le_of_ble_eq_true rfl, rfl, rfl⟩
theorem resumeService (seq : Octet) :
    Statement (.resumeService seq) := of_some rfl fun _ _ _ => ⟨Nat.le_of_ble_eq_true rfl, rfl, rfl⟩
theorem flushCache (seq : Octet) : Statement (.flushCache seq) := of_some rfl fun _ _ _ => ⟨Nat.le_of_ble_eq_true rfl, rfl, rfl⟩
theorem readStatus (seq : Octet) : Statement (.readStatus seq) := of_some rfl fun _ _ _ => ⟨Nat.le_of_ble_eq_true rfl, rfl, rfl⟩
theorem readCounters (seq : Octet) (clearAfter : Octet) :
    Statement (.readCounters seq clearAfter) := of_some rfl fun _ _ _ => ⟨Nat.le_of_ble_eq_true rfl, rfl, rfl⟩
theorem resetUnit (seq : Octet) (straps : BitVec 6) :
    Statement (.resetUnit seq straps) := of_some rfl fun pins _ r => ⟨Nat.le_of_ble_eq_true rfl, rfl, by
    rw [r seq straps rfl]; rfl⟩
theorem unknownCommand (seq : Octet) (code : Octet) (args : List Octet) :
    Statement (.unknownCommand seq code args) := of_some rfl fun straps w _ => by
    simp only [Instr.wellFormed, wfArguments, wfUnknown, Bool.and_eq_true, decide_eq_true_eq] at w
    obtain ⟨n, w⟩ := w
    refine ⟨by simp only [List.length_cons]; omega, ?_, ?_⟩
    · simp only [payloadAccepted, List.length_cons]
      exact congrArg some (decide_eq_true ⟨by omega, by omega⟩)
    · exact congrArg some (decodeMgmt_unknown straps w)
theorem tableClear (seq : Octet) (block : Octet) :
    Statement (.tableClear seq block) := of_some rfl fun _ _ _ => ⟨Nat.le_of_ble_eq_true rfl, rfl, rfl⟩
theorem tableWrite (seq : Octet) (block : Octet) (entry : Octet) (values : List Octet) :
    Statement (.tableWrite seq block entry values) := of_some rfl fun straps w _ => by
    have w : values.length ≤ 476 := of_decide_eq_true w
    refine ⟨by simp only [List.length_cons]; omega, ?_, rfl⟩
    simp only [payloadAccepted, List.length_cons]
    exact congrArg some (decide_eq_true ⟨by omega, by omega⟩)
theorem tableClose (seq : Octet) (block : Octet) :
    Statement (.tableClose seq block) := of_some rfl fun _ _ _ => ⟨Nat.le_of_ble_eq_true rfl, rfl, rfl⟩
theorem tableAbort (seq : Octet) : Statement (.tableAbort seq) := of_some rfl fun _ _ _ => ⟨Nat.le_of_ble_eq_true rfl, rfl, rfl⟩
theorem tableRead (seq : Octet) (block : Octet) (entry : Octet) :
    Statement (.tableRead seq block entry) := of_some rfl fun _ _ _ => ⟨Nat.le_of_ble_eq_true rfl, rfl, rfl⟩
theorem tableStatusClear (seq : Octet) :
    Statement (.tableStatusClear seq) := of_some rfl fun _ _ _ => ⟨Nat.le_of_ble_eq_true rfl, rfl, rfl⟩
theorem clearComplete : Statement .clearComplete := of_none rfl
theorem writeComplete : Statement .writeComplete := of_none rfl
theorem closeComplete : Statement .closeComplete := of_none rfl
theorem octetBoundaryFound : Statement .octetBoundaryFound := of_none rfl

end Sys2Proof.Laws.FrameCodec
end

