-- ==== Sys2Proof/Laws/Quiet.lean ====
section
/-! SUPPORT. The quiet tasks: a context going on, a pool's lookups repeated. They end no context
and offer no reply, and they set off quiet tasks alone. -/

namespace Sys2Proof.Machine

open Sys2Proof.Safety

/-- A task that neither regathers nor ends a context. -/
def Task.quiet : Task → Bool
  | .resume _ | .retry _ => true
  | .regather _ => false

/-- What quiet tasks leave alone: the lanes, the transaction counters, the commit records, the link counters, and of
every context its generation and its card. -/
structure Hushed (s t : State) : Prop where
  lanes : t.lanes = s.lanes
  counters : t.dct.counters = s.dct.counters
  cu : t.cu = s.cu
  link : t.bli.counters = s.bli.counters
  gen : ∀ c, (t.ctx c).gen = (s.ctx c).gen
  cards : ∀ c, cardOf t c = cardOf s c

theorem Hushed.refl (s : State) : Hushed s s := ⟨rfl, rfl, rfl, rfl, fun _ => rfl, fun _ => rfl⟩

theorem Hushed.trans {s t u : State} (h : Hushed s t) (g : Hushed t u) : Hushed s u :=
  ⟨g.lanes.trans h.lanes, g.counters.trans h.counters, g.cu.trans h.cu, g.link.trans h.link, fun c => (g.gen c).trans (h.gen c),
   fun c => (g.cards c).trans (h.cards c)⟩

/-- An update of other tables is hushed. -/
theorem Hushed.of_eq {s t : State} (lanes : t.lanes = s.lanes) (dct : t.dct = s.dct) (cu : t.cu = s.cu)
    (link : t.bli.counters = s.bli.counters := by first | rfl | simp) : Hushed s t :=
  ⟨lanes, by rw [dct], cu, link, fun c => by simp [State.ctx, dct], fun c => by simp [cardOf, State.txn, State.ctx, dct]⟩

/-- An update of other tables before a hushed operation. -/
theorem Hushed.after {s t u : State} (g : Hushed t u) (lanes : t.lanes = s.lanes) (dct : t.dct = s.dct)
    (cu : t.cu = s.cu) (link : t.bli.counters = s.bli.counters := by first | rfl | simp) : Hushed s u :=
  (Hushed.of_eq lanes dct cu link).trans g

/-- Replacing a busy context's transaction by one of the same card is hushed. -/
theorem hushed_setTxn (s : State) (c : CtxId) (x y : Txn) (h : s.txn c = some x) (e : card y = card x) :
    Hushed s (s.setTxn c (some y)) := by
  refine ⟨rfl, rfl, rfl, rfl, fun d => ?_, fun d => ?_⟩
  · by_cases hd : c = d
    · subst hd; simp [State.setTxn]
    · simp [State.setTxn, State.ctx_setCtx_ne s _ hd]
  · by_cases hd : c = d
    · subst hd; simp [cardOf, h, e]
    · simp [cardOf, State.txn_setTxn_ne s _ hd]

/-- Changing a context's transaction in a way that keeps its card is hushed. -/
theorem hushed_mapTxn (s : State) (c : CtxId) (f : Txn → Txn) (e : ∀ x, card (f x) = card x) :
    Hushed s (s.mapTxn c f) := by
  refine ⟨rfl, rfl, rfl, rfl, fun d => ?_, fun d => ?_⟩
  · by_cases hd : c = d
    · subst hd; simp [State.mapTxn, State.setTxn]
    · simp [State.mapTxn, State.setTxn, State.ctx_setCtx_ne s _ hd]
  · by_cases hd : c = d
    · subst hd; cases h : s.txn c <;> simp [cardOf, h, e]
    · simp [cardOf, State.txn_mapTxn_ne s _ hd]

@[simp] theorem card_setNeed (t : Txn) (k : RecordKind) (n : Option Need) : card (t.setNeed k n) = card t := by
  cases k <;> rfl
@[simp] theorem card_found (t : Txn) (k : RecordKind) (n : Nat) (h : Bool) : card (t.found k n h) = card t := by
  simp [Txn.found]
@[simp] theorem card_lose (t : Txn) (k : RecordKind) : card (t.lose k) = card t := by simp [Txn.lose]
@[simp] theorem card_settleTitle (t : Txn) (i : Image) : card (t.settleTitle i) = card t := rfl

theorem hushed_foldl {α : Type} (f : State → α → State) (h : ∀ s a, Hushed s (f s a)) (l : List α) (s : State) :
    Hushed s (l.foldl f s) := by
  induction l generalizing s with
  | nil => exact Hushed.refl s
  | cons a l ih => exact (h s a).trans (ih _)

/-! ## The operations quiet tasks are made of -/

theorem hushed_sendFrame (f : Frame) (s : State) : Hushed s (sendFrame f s) := .of_eq rfl rfl rfl

theorem hushed_fetchDue (i : SlotId) (a b : Nat) (s : State) : Hushed s (fetchDue i a b s) := by
  unfold fetchDue; dsimp only; repeat' split
  all_goals exact .of_eq rfl rfl rfl

theorem hushed_takeUp (i : SlotId) (w : WaitingFill) (s : State) : Hushed s (takeUp i w s) :=
  (hushed_fetchDue _ _ _ _).after rfl rfl rfl

theorem hushed_giveFill (w : WaitingFill) (s : State) : Hushed s (giveFill w s) := by
  unfold giveFill; split
  · exact hushed_takeUp _ _ _
  · exact .of_eq rfl rfl rfl

theorem hushed_finishSlot (i : SlotId) (s : State) : Hushed s (finishSlot i s) := by
  unfold finishSlot; dsimp only; split
  · exact .of_eq rfl rfl rfl
  · exact (hushed_takeUp _ _ _).after rfl rfl rfl

theorem hushed_lookup (c : CtxId) (k : RecordKind) (key : Key) (s : State) : Hushed s (lookup c k key s).1 := by
  unfold lookup; dsimp only; repeat' split
  all_goals first
    | exact .of_eq rfl rfl rfl
    | exact (hushed_giveFill _ _).after rfl rfl rfl

theorem hushed_releaseEntry (c : CtxId) (k : RecordKind) (n : Nat) (s : State) :
    Hushed s (releaseEntry c k n s).1 := by
  unfold releaseEntry; repeat' split
  all_goals first
    | exact .of_eq rfl rfl rfl
    | exact (hushed_foldl _ (fun s w => hushed_mapTxn s w _ fun x => card_lose x k) _ _).after rfl rfl rfl
    | exact (hushed_mapTxn _ _ _ fun x => card_found x k n true).after rfl rfl rfl

theorem hushed_releaseNeed (c : CtxId) (t : Txn) (k : RecordKind) (s : State) :
    Hushed s (releaseNeed c t k s).1 := by
  unfold releaseNeed; split
  · exact hushed_releaseEntry _ _ _ _
  · exact Hushed.refl s

theorem quiet_releaseEntry (c : CtxId) (k : RecordKind) (n : Nat) (s : State) :
    ∀ t ∈ (releaseEntry c k n s).2, t.quiet = true := by
  unfold releaseEntry; repeat' split
  all_goals (intro t ht; simp at ht; try (rcases ht with ⟨_, _, rfl⟩ | rfl <;> rfl))

theorem quiet_releaseNeed (c : CtxId) (t : Txn) (k : RecordKind) (s : State) :
    ∀ u ∈ (releaseNeed c t k s).2, u.quiet = true := by
  unfold releaseNeed; split
  · exact quiet_releaseEntry _ _ _ _
  · simp

theorem hushed_releaseLock (c : CtxId) (t : Txn) (k : RecordKind) (s : State) :
    Hushed s (releaseLock c t k s).1 := by
  unfold releaseLock; split
  · exact Hushed.refl s
  · exact hushed_releaseNeed _ _ _ _

theorem quiet_releaseLock (c : CtxId) (t : Txn) (k : RecordKind) (s : State) :
    ∀ u ∈ (releaseLock c t k s).2, u.quiet = true := by
  unfold releaseLock; split
  · simp
  · exact quiet_releaseNeed _ _ _ _

theorem hushed_eachKind (f : RecordKind → State → State × List Task) (h : ∀ k s, Hushed s (f k s).1) (s : State) :
    Hushed s (eachKind f s).1 := ((h .patron s).trans (h .title _)).trans (h .item _)

theorem quiet_eachKind (f : RecordKind → State → State × List Task) (h : ∀ k s, ∀ u ∈ (f k s).2, u.quiet = true)
    (s : State) : ∀ u ∈ (eachKind f s).2, u.quiet = true := by
  intro u hu
  simp only [eachKind, List.mem_append] at hu
  rcases hu with (g | g) | g <;> exact h _ _ u g

theorem hushed_releaseAll (c : CtxId) (t : Txn) (s : State) : Hushed s (releaseAll c t s).1 :=
  (hushed_eachKind _ (hushed_releaseLock c t) s).trans (hushed_eachKind _ (hushed_releaseNeed c t) _)

theorem quiet_releaseAll (c : CtxId) (t : Txn) (s : State) : ∀ u ∈ (releaseAll c t s).2, u.quiet = true := by
  intro u hu
  rcases List.mem_append.mp hu with g | g
  · exact quiet_eachKind _ (quiet_releaseLock c t) s u g
  · exact quiet_eachKind _ (quiet_releaseNeed c t) _ u g

theorem hushed_enterDecide (c : CtxId) (x : Txn) (t : Txn) (s : State) (h : s.txn c = some x)
    (g : x.state = .gather) (e : card t = card x) : Hushed s (enterDecide c t s) := by
  have k : Hushed s (s.setTxn c (some { t with state := .decide, day := some s.um.day, ruleWait := none })) := by
    refine hushed_setTxn s c x _ h ?_
    simp only [card, Card.mk.injEq] at e ⊢
    simp [e, g]
  exact k.trans (.of_eq rfl rfl rfl)

theorem hushed_resettle (c : CtxId) (t : Txn) (item : Image) (s : State) (h : s.txn c = some t) :
    Hushed s (resettle c t item s).1 :=
  (((hushed_setTxn s c t (t.resettled c item s) h rfl).trans (hushed_releaseLock c t .patron _)).trans
    (hushed_releaseNeed c t .title _)).trans (hushed_releaseLock c t .item _)

theorem quiet_resettle (c : CtxId) (t : Txn) (item : Image) (s : State) :
    ∀ u ∈ (resettle c t item s).2, u.quiet = true := by
  intro u hu
  simp only [resettle, List.mem_append, List.mem_singleton] at hu
  rcases hu with ((hu | hu) | hu) | rfl
  · exact quiet_releaseLock _ _ _ _ u hu
  · exact quiet_releaseNeed _ _ _ _ u hu
  · exact quiet_releaseLock _ _ _ _ u hu
  · rfl

theorem hushed_allLocked (c : CtxId) (t : Txn) (s : State) (h : s.txn c = some t) (g : t.state = .gather) :
    Hushed s (allLocked c t s).1 ∧ ∀ u ∈ (allLocked c t s).2, u.quiet = true := by
  unfold allLocked; repeat' split
  · exact ⟨hushed_enterDecide c t t s h g rfl, by simp⟩
  · exact ⟨hushed_resettle c t _ s h, quiet_resettle c t _ s⟩
  · exact ⟨hushed_setTxn s c t _ h (card_lose t .item), by simp [Task.quiet]⟩
  · exact ⟨hushed_enterDecide c t t s h g rfl, by simp⟩

theorem hushed_requestLock (c : CtxId) (t : Txn) (k : RecordKind) (key : Key) (n : Nat) (s : State)
    (h : s.txn c = some t) :
    Hushed s (requestLock c t k key n s).1 ∧ ∀ u ∈ (requestLock c t k key n s).2, u.quiet = true := by
  have lost := hushed_setTxn s c t _ h (card_lose t k)
  have found := hushed_setTxn s c t _ h (card_found t k n true)
  unfold requestLock; dsimp only; repeat' split
  all_goals first
    | exact ⟨lost, by simp [Task.quiet]⟩
    | exact ⟨found, by simp [Task.quiet]⟩
    | exact ⟨.of_eq rfl rfl rfl, by simp⟩
    | exact ⟨found.trans (.of_eq rfl rfl rfl), by simp [Task.quiet]⟩

theorem hushed_copyPatron (c : CtxId) (t : Txn) (s : State) (h : s.txn c = some t) (g : t.state = .gather) :
    Hushed s (copyPatron c t s).1 ∧ ∀ u ∈ (copyPatron c t s).2, u.quiet = true := by
  unfold copyPatron; repeat' split
  · rename_i n _ _ _ copy _
    exact ⟨(hushed_enterDecide c t { t with patronCopy := some copy.image } (s.touch .patron n) h g rfl).after
      rfl rfl rfl, by simp⟩
  · exact ⟨hushed_setTxn s c t _ h (card_lose t .patron), by simp [Task.quiet]⟩
  · exact ⟨Hushed.refl s, by simp⟩

theorem hushed_resumeCtx (c : CtxId) (s : State) :
    Hushed s (resumeCtx c s).1 ∧ ∀ u ∈ (resumeCtx c s).2, u.quiet = true := by
  unfold resumeCtx
  split
  · exact ⟨Hushed.refl s, by simp⟩
  rename_i t h
  split
  · exact ⟨Hushed.refl s, by simp⟩
  rename_i g
  have g : t.state = .gather := by simpa using g
  split
  · split
    · exact ⟨hushed_setTxn s c t _ h (card_settleTitle t _), by simp [Task.quiet]⟩
    · exact ⟨hushed_setTxn s c t _ h (card_lose t .item), by simp [Task.quiet]⟩
  · split
    · rename_i k key _
      have hl := hushed_lookup c k key s
      split
      · rename_i s' n heq
        rw [heq] at hl
        have e : (s'.txn c).map card = (s.txn c).map card := hl.cards c
        rw [h] at e
        cases hx : s'.txn c with
        | none => rw [hx] at e; simp at e
        | some x =>
          rw [hx] at e
          have e : card x = card t := by simpa using e
          exact ⟨hl.trans (hushed_setTxn s' c x _ hx ((card_found t k n false).trans e.symm)),
            by simp [Task.quiet]⟩
      · rename_i s' heq
        rw [heq] at hl
        exact ⟨hl, by simp⟩
    · split
      · exact hushed_copyPatron c t s h g
      · split
        · exact hushed_requestLock c t _ _ _ s h
        · exact hushed_allLocked c t s h g

/-- A quiet task is hushed, and sets off quiet tasks alone. -/
theorem hushed_doTask (t : Task) (q : t.quiet = true) (s : State) :
    Hushed s (doTask t s).1 ∧ ∀ u ∈ (doTask t s).2, u.quiet = true := by
  cases t with
  | resume c => exact hushed_resumeCtx c s
  | retry k => exact ⟨Hushed.refl s, by simp [doTask, Task.quiet]⟩
  | regather c => simp [Task.quiet] at q

/-- However many tasks quiet tasks set off, the lanes, the counters, the commit records and every context's card stay
as they were. -/
theorem hushed_runTasks (fuel : Nat) (ts : List Task) (q : ∀ t ∈ ts, t.quiet = true) (s : State) :
    Hushed s (runTasks fuel ts s) := by
  induction fuel generalizing ts s with
  | zero => exact Hushed.refl s
  | succ n ih =>
    cases ts with
    | nil => exact Hushed.refl s
    | cons t ts =>
      have h := hushed_doTask t (q t (by simp)) s
      refine h.1.trans (ih _ ?_ _)
      intro u hu
      rcases List.mem_append.mp hu with hu | hu
      · exact h.2 u hu
      · exact q u (by simp [hu])

theorem hushed_offerRoom (k : RecordKind) (s : State) : Hushed s (offerRoom k s) :=
  hushed_runTasks _ _ (by simp [Task.quiet]) s

/-- What a context sets off as it becomes FREE is quiet. -/
theorem quiet_freeCtx (c : CtxId) (s : State) : ∀ t ∈ (freeCtx c s).2, t.quiet = true := by
  unfold freeCtx; split
  · simp
  · exact quiet_releaseAll _ _ _

/-- What a context sets off as it ends is quiet. -/
theorem quiet_endCtx (c : CtxId) (code : ResultCode) (fields : List Octet) (s : State) :
    ∀ t ∈ (endCtx c code fields s).2, t.quiet = true := by
  unfold endCtx; split
  · simp
  · exact quiet_freeCtx _ _

/-- What contexts set off that end together is quiet. -/
theorem quiet_endEach (code : ResultCode) (cs : List CtxId) (s : State) :
    ∀ t ∈ (endEach code cs s).2, t.quiet = true := by
  induction cs generalizing s with
  | nil => simp [endEach]
  | cons c cs ih =>
    intro t ht
    rcases List.mem_append.mp ht with h | h
    · exact quiet_endCtx c code [] s t h
    · exact ih _ t h

/-- What an abort sets off is quiet. -/
theorem quiet_abortWhere (test : Txn → Bool) (cs : List CtxId) (s : State) :
    ∀ t ∈ (abortWhere test cs s).2, t.quiet = true := by
  induction cs generalizing s with
  | nil => simp [abortWhere]
  | cons c cs ih =>
    unfold abortWhere; split
    · intro t ht
      rcases List.mem_append.mp ht with h | h
      · revert h; unfold abortCtx; repeat' split
        all_goals first
          | exact fun h => quiet_freeCtx c s t h
          | simp
      · exact ih _ t h
    · exact ih s

theorem hushed_pumpReplies (s : State) : Hushed s (pumpReplies s) := by
  unfold pumpReplies; split <;> exact .of_eq rfl rfl rfl

theorem hushed_answer (seq command : Octet) (result : ResultCode) (fields : List Octet) (s : State) :
    Hushed s (answer seq command result fields s) :=
  (hushed_pumpReplies _).after rfl rfl rfl

theorem hushed_settleQuiesce (s : State) : Hushed s (settleQuiesce s) := by
  unfold settleQuiesce; split
  · dsimp only; split
    · exact (hushed_answer _ _ _ _ _).after rfl rfl rfl
    · exact .of_eq rfl rfl rfl
  · exact Hushed.refl s

/-- An event whose tasks are quiet is hushed from where its own effect left the state. -/
theorem hushed_settle (r : State × List Task) (q : ∀ t ∈ r.2, t.quiet = true) : Hushed r.1 (settle r) :=
  (hushed_runTasks _ _ q _).trans (hushed_settleQuiesce _)

end Sys2Proof.Machine
end

