-- ==== Sys2Proof/Laws/Steady.lean ====
section
/-! SUPPORT. What every command of the lanes, the link, the timers and AU leaves alone: power, the commands waiting,
the rule store, the county day, the override, the reset cause, the receiver and the unit number. Unit Management's
service state and its replies can move, because a unit that becomes idle answers a pending QUIESCE (R189). -/

namespace Sys2Proof.Machine

/-- What those commands leave alone. -/
structure Steady where
  powered : Bool
  pending : List Instr
  rs : RuleStore
  day : Day
  override : Override
  cause : ResetCause
  phase : RxPhase
  assembly : List Octet
  escape : Bool
  unitNumber : BitVec 6
  lines : Vector Lane 4
deriving DecidableEq, Repr

/-- The steady part of an outside. -/
def Outside.steady (o : Outside) : Steady :=
  ⟨o.powered, o.pending, o.rs, o.um.day, o.um.override, o.um.cause, o.phase, o.assembly, o.escape, o.unitNumber,
   o.lines⟩

/-- The steady part of the state. -/
def State.steady (s : State) : Steady := s.outside.steady

/-- An operation that leaves the outside alone leaves the steady part alone. -/
theorem steady_of_outside {s t : State} (h : t.outside = s.outside) : t.steady = s.steady := by
  simp [State.steady, h]

/-- A change of the replies, the service state and the pending QUIESCE is no change of the steady part. -/
@[simp] theorem steady_um (s : State) (u : Um) (day : u.day = s.um.day) (override : u.override = s.um.override)
    (cause : u.cause = s.um.cause) : ({ s with um := u } : State).steady = s.steady := by
  simp [State.steady, Outside.steady, State.outside, day, override, cause]

@[simp] theorem steady_sendFrame (f : Frame) (s : State) : (sendFrame f s).steady = s.steady :=
  steady_of_outside (outside_sendFrame f s)

@[simp] theorem steady_pumpReplies (s : State) : (pumpReplies s).steady = s.steady := by
  unfold pumpReplies; split <;> simp

/-- A management reply changes the reply list and the transmit queue alone. -/
@[simp] theorem steady_answer (seq command : Octet) (result : ResultCode) (fields : List Octet) (s : State) :
    (answer seq command result fields s).steady = s.steady := by simp [answer]

@[simp] theorem steady_settleQuiesce (s : State) : (settleQuiesce s).steady = s.steady := by
  unfold settleQuiesce; split
  · dsimp only; split <;> simp
  · rfl

/-- Whatever an event sets off, it leaves the steady part alone. -/
@[simp] theorem steady_settle (r : State × List Task) : (settle r).steady = r.1.steady := by
  simp only [settle, steady_settleQuiesce]; exact steady_of_outside (outside_runTasks _ _ _)

@[simp] theorem steady_abortLane (i : LaneId) (s : State) : (abortLane i s).steady = s.steady := by
  simp only [abortLane, steady_settle]; exact steady_of_outside (outside_abortWhere _ _ _)

@[simp] theorem steady_abortDrop (i : LaneId) (d : DropId) (s : State) : (abortDrop i d s).steady = s.steady := by
  simp only [abortDrop, steady_settle]; exact steady_of_outside (outside_abortWhere _ _ _)

@[simp] theorem steady_dispatch (i : LaneId) (d : DropId) (body : List Octet) (s : State) :
    (dispatch i d body s).steady = s.steady := by
  unfold dispatch; dsimp only; repeat' split
  · exact steady_of_outside (outside_offerRelay _ _ _ _)
  · exact steady_of_outside (outside_offerReply _ _ _ _)
  · exact steady_of_outside (outside_offerReply _ _ _ _)
  · simp only [accept, steady_settle]; exact steady_of_outside rfl

/-! ## The link's frames -/

@[simp] theorem steady_takeRelayDown (lane drop : Octet) (body : List Octet) (s : State) :
    (takeRelayDown lane drop body s).steady = s.steady := by
  unfold takeRelayDown; split
  · exact steady_of_outside (outside_offerReply _ _ _ _)
  · exact steady_of_outside rfl

@[simp] theorem steady_takeSegment (tag : Tag) (kind : Octet) (key : Key) (version : Version)
    (index flags : Octet) (data : List Octet) (s : State) :
    (takeSegment tag kind key version index flags data s).steady = s.steady := by
  unfold takeSegment; dsimp only; repeat' split
  all_goals first
    | (rw [steady_settle]; exact steady_of_outside (by simp))
    | exact steady_of_outside (by simp)

@[simp] theorem steady_takeAbsent (tag : Tag) (s : State) : (takeAbsent tag s).steady = s.steady := by
  unfold takeAbsent; repeat' split
  all_goals first
    | (rw [steady_settle]; exact steady_of_outside (by simp))
    | exact steady_of_outside (by simp)

@[simp] theorem steady_takeDefer (tag : Tag) (code : Octet) (s : State) :
    (takeDefer tag code s).steady = s.steady := by
  unfold takeDefer; repeat' split
  all_goals first
    | (rw [steady_settle]; exact steady_of_outside (by simp))
    | exact steady_of_outside (by simp)

@[simp] theorem steady_takeInvalidate (kind : Octet) (key : Key) (v : Version) (s : State) :
    (takeInvalidate kind key v s).steady = s.steady := by
  unfold takeInvalidate; repeat' split
  all_goals first
    | rfl
    | (rw [steady_settle]; exact steady_of_outside (by simp))

@[simp] theorem steady_takeResult (tag : Tag) (attempt outcome : Octet) (versions : List Version) (s : State) :
    (takeResult tag attempt outcome versions s).steady = s.steady := by
  unfold takeResult; dsimp only; repeat' split
  all_goals first
    | (rw [steady_settle]; exact steady_of_outside (by simp))
    | exact steady_of_outside (by simp)

@[simp] theorem steady_frameSent (f : Frame) (s : State) : (frameSent f s).steady = s.steady := by
  unfold frameSent; dsimp only; repeat' split
  all_goals first
    | exact steady_of_outside (by simp)
    | (rw [steady_pumpReplies]; exact steady_um _ _ rfl rfl rfl)

@[simp] theorem steady_endFrame (s : State) : (endFrame s).steady = s.steady := by
  unfold endFrame; dsimp only; split
  · rfl
  · rw [steady_frameSent]; exact steady_of_outside (by simp [State.outside])

/-! ## Timers and decisions -/

@[simp] theorem steady_endDelay (i : SlotId) (s : State) : (endDelay i s).steady = s.steady := by
  unfold endDelay; repeat' split
  all_goals exact steady_of_outside (by simp)

@[simp] theorem steady_fetchTimerOut (i : SlotId) (s : State) : (fetchTimerOut i s).steady = s.steady := by
  unfold fetchTimerOut; repeat' split
  all_goals first
    | (rw [steady_settle]; exact steady_of_outside (by simp))
    | rfl

@[simp] theorem steady_commitTimerOut (c : CtxId) (s : State) : (commitTimerOut c s).steady = s.steady := by
  unfold commitTimerOut; repeat' split
  all_goals first
    | (rw [steady_settle]; exact steady_of_outside (by simp))
    | rfl

@[simp] theorem steady_deadlineFalls (c : CtxId) (s : State) : (deadlineFalls c s).steady = s.steady := by
  unfold deadlineFalls; repeat' split
  all_goals first
    | (rw [steady_settle]; exact steady_of_outside (by simp))
    | rfl

@[simp] theorem steady_applyDecision (c : CtxId) (t : Txn) (d : Decision) (s : State) :
    (applyDecision c t d s).steady = s.steady := by
  unfold applyDecision; dsimp only; repeat' split
  all_goals first
    | (rw [steady_settle]; exact steady_of_outside (by simp))
    | exact steady_of_outside (by simp)

@[simp] theorem steady_takeDecision (f : CtxId → Txn → State → Option Decision) (s : State) :
    (takeDecision f s).steady = s.steady := by
  unfold takeDecision; repeat' split
  all_goals first
    | rfl
    | (rw [steady_applyDecision]; exact steady_of_outside rfl)

end Sys2Proof.Machine
end

