-- ==== Sys2Proof/Tests/Slice0.lean ====
section
/-! SUPPORT. Tests. First the well-formedness smoke: for each check an ill-formed command it refuses. Then the manual's
worked figures, each named by its section. Last, for each statement with hypotheses, a witness that they can be met,
clause by clause and at the ends of the ranges they name. -/

namespace Sys2Proof.Tests

open Sys2Proof Sys2Proof.Machine Sys2Proof.Safety

/- One theorem at a time: many kernel evaluations waiting at once would each hold a thread. -/
set_option Elab.async false

/-! ## Helpers -/

/-- The state a command leaves. -/
def after (c : Instr) (s : State) : State :=
  match exec c s with
  | .next t => t
  | _ => s

/-- The part after reset with lane 1 given. -/
def lane1 (l : Lane) : State := State.reset.setLane 1 l

/-- Lane 1 of the worked round in 1.12, after its turn for drop 2; drops 1, 4, 7 and 8 are OFF. -/
def roundLane : Lane :=
  { Lane.reset with
    mode := .serve
    round := 3
    drops := #v[⟨.off, .present, 0⟩, ⟨.served, .present, 0⟩, ⟨.relayed, .present, 2⟩, ⟨.off, .present, 0⟩,
      ⟨.served, .absent, 3⟩, ⟨.served, .present, 0⟩, ⟨.off, .present, 0⟩, ⟨.off, .present, 0⟩]
    lastVisited := 2
    replies := [⟨5, [1, 2, 3, 4, 5, 6, 7, 8, 9, 10]⟩, ⟨5, [1, 2, 3, 4, 5, 6]⟩] }

/-- Lane 1 with a turn for drop 3. -/
def turnLane (p : TurnPhase) : Lane := { roundLane with lastVisited := 3, turn := some ⟨2, p⟩ }

/-- Lane 1 in a turn for drop 3 with some characters assembled. -/
def framing (cs : List LaneChar) : Lane := { turnLane .assembly with assembly := cs }

/-- Lane 1 idle in SERVE: no drop enrolled. -/
def idleLane : Lane := { Lane.reset with mode := .serve, idle := true }

/-- A clean character. -/
def clean (c : LaneChar) : Samples := c.samples

/-- A patron image: number, class, card expiry, manual block, holds count and fines. -/
def patronImage (number cls expiry block holds : Nat) (fines : List Fine) : Image :=
  putFines (beOctets 4 number ++ [octet cls, 0] ++ beOctets 2 expiry ++ [octet block, octet holds] ++
    List.replicate 118 0) fines

/-- An item image: number, title, class, branch, borrower (0 for no loan), due day and renewals used. -/
def itemImage (number title cls branch borrower due used : Nat) : Image :=
  beOctets 4 number ++ beOctets 4 title ++
    [octet cls, octet branch, if borrower = 0 then 0 else 1] ++ beOctets 4 borrower ++ beOctets 2 due ++
    [octet used] ++ List.replicate 14 0

/-- A title image: number, free copies and holds. -/
def titleImage (number free : Nat) (holds : List Hold) : Image :=
  putHolds (beOctets 4 number ++ [octet free] ++ List.replicate 251 0) holds

/-- A block whose written entries are listed. -/
def block (content : Content) (count : Nat) (entries : List (Nat × RuleEntry)) : Block :=
  ⟨content, (List.range count).map fun n => (entries.find? fun e => decide (e.1 = n)).map Prod.snd⟩

/-- The rule tables of 7.6: LR1 entry 34, PC entries 6 and 16, CAL2 entries 25 and 26. -/
def rules : RuleStore :=
  { blocks := (((Vector.replicate 13 (block .blank 64 [])).set 1
        (block .valid 64 [(34, .loanRule ⟨1, 21, 3, 25, 500, 3⟩)])).set 6
        (block .valid 64 [(25, .calendar (1#64 <<< 39 ||| 1#64 <<< 40 ||| 1#64 <<< 46 ||| 1#64 <<< 47)),
          (26, .calendar (1#64 <<< 5))])).set 12
        (block .valid 17 [(6, .patronClass ⟨1000, 30, 10⟩), (16, .windowBase 20000)])
    operation := none, writeError := false, sequenceError := false }

/-- A transaction of lane 2, drop 4, with its request and state, holding the entries 0 of its records. -/
def txn (state : TxnState) (request : Request) : Txn :=
  { state, lane := 2, drop := 3, kioskTag := 0x31, request, deadline := .running
    patron := some ⟨request.patronKey, some 0, true⟩
    title := (request.titleKey.orElse fun _ => request.itemKey).map fun k => ⟨k, some 0, true⟩
    item := request.itemKey.map fun k => ⟨k, some 0, true⟩
    titleSettled := true, regathers := 0, day := some 20112, abandoned := false, patronCopy := none
    ruleWait := none, outstanding := none }

/-- A locked VALID entry of context 5. -/
def locked (key : Key) (image : Image) : Entry := .valid ⟨key, 9, image, none⟩ (some 5) []

/-- The part with context 5 busy at generation 18, its records in the entries 0. -/
def busy (x : Txn) : State :=
  ((((State.reset.setCtx 5 ⟨18, some x⟩).setEntry .patron 0 (locked x.request.patronKey [])).setEntry .title 0
    (locked ((x.title.map Need.key).getD 0) [])).setEntry .item 0 (locked ((x.item.map Need.key).getD 0) []))

/-- The same with context 5 at the head of AU's list. -/
def deciding (x : Txn) : State := { busy x with au := ⟨[5], []⟩ }

/-- An outstanding UPDATE of one patron entry. -/
def update : Outstanding := ⟨0, [⟨.patron, 0, 70004, 9, some []⟩], none, .paid, []⟩

/-- Context 5 in COMMIT with its UPDATE outstanding and its timer running. -/
def committing : State :=
  (busy { txn .commit (.pay 70004 500 1) with outstanding := some update }).setCommitRec 5 ⟨true, false, none⟩

/-- A fill of patron 70,004 into entry 4. -/
def fill : Fill := ⟨.requested, .patron, 4, 70004, [none, none, none, none], none, 0, 0, none⟩

/-- Slot 2 at generation 41 with a fill, its entry FILLING for some waiters. -/
def filling (f : Fill) (ws : List CtxId) : State :=
  (State.reset.setSlot 2 ⟨41, some f, false⟩).setEntry f.kind f.entry (.filling f.key ws)

/-- The same fill with contexts 6, of drop 7, and 5, of drop 4, as its waiters in that order, and a fill of item 9 waiting
for a slot. -/
def failing : State :=
  let x := { txn .gather (.pay 70004 500 1) with patron := some ⟨70004, none, false⟩ }
  let s := (((filling fill [6, 5]).setCtx 5 ⟨18, some x⟩).setCtx 6 ⟨4, some { x with drop := 6 }⟩).setLane 2
    { roundLane with drops := Vector.replicate 8 ⟨.served, .present, 0⟩, replies := [] }
  { s with fu := { s.fu with waiting := [⟨.item, 3, 9, 0⟩] } }

/-- The tag of slot 2 at generation 41. -/
def fillTag : Tag := 0x2029

/-- The part with some replies in UM's list and none on the line. -/
def owing (n : Nat) : State :=
  { State.reset with um := { State.reset.um with replies := List.replicate n ⟨1, 8, .done, []⟩, replyOnLine := true } }

/-- The part with some RELAY_UP frames held for the line, one of them in transmission. -/
def relaying (n : Nat) : State :=
  { State.reset with bli := { State.reset.bli with
      txQueue := List.replicate n (.relayUp 0 0 [1, 2]), transmitting := some (.relayUp 0 0 [1, 2]) } }

/-- The part with a frame in transmission and an empty queue. -/
def sending (f : Frame) (s : State) : State :=
  { s with bli := { s.bli with txQueue := [], transmitting := some f } }

/-- The reply a decision makes: its code and fields. -/
def replyOf (d : Decision) : Option (ResultCode × List Octet) :=
  match d.verdict with
  | .refuse code => some (code, [])
  | .succeed code fields => some (code, fields)
  | .commit code fields _ => some (code, fields)
  | .wait _ => none

/-- The part with a store operation running on a block. -/
def running (o : Operation) : State :=
  { State.reset with rs := (State.reset.rs.setContent o.block .incomplete) |> fun r => { r with operation := some o } }

/-! ## Well-formedness: each check refuses an ill-formed command -/

theorem test_wf_error_octets_empty : (Instr.linkFrameError []).wellFormed = false := by decide
theorem test_wf_error_octets_delimiter : (Instr.linkFrameError [1, 0xA5, 2]).wellFormed = false := by decide
theorem test_wf_body : (Instr.relayDown 0 1 (List.replicate 479 0)).wellFormed = false := by decide +kernel
theorem test_wf_segment_data : (Instr.segment 0 1 1 1 0 0 (List.replicate 31 0)).wellFormed = false := by decide
theorem test_wf_versions : (Instr.result 0 0 1 [1, 2, 3, 4]).wellFormed = false := by decide
theorem test_wf_values : (Instr.tableWrite 0 0 0 (List.replicate 477 0)).wellFormed = false := by decide +kernel
theorem test_wf_arguments : (Instr.unknownCommand 0 0x11 (List.replicate 479 0)).wellFormed = false := by
  decide +kernel
theorem test_wf_unknown : (Instr.unknownCommand 0 0x08 []).wellFormed = false := by decide
theorem test_wf_accepts : (Instr.unknownCommand 0 0x08 [0]).wellFormed = true ∧
    (Instr.linkFrameError [0xA5]).wellFormed = true ∧ (Instr.relayDown 9 9 []).wellFormed = true := by decide

/-! ## The queue -/

/-- No word spells a command. -/
theorem test_no_words : decodeTableWord 8 0xA5 = none ∧ State.reset.withFetchWord 8 0 = State.reset := ⟨rfl, rfl⟩

/-! ## Worked figures: lanes (1.12, R7, R12, R194) -/

/-- 1.12: the DELIVER of reply B for drop 2 is 0x82, 4 and the body, 6 characters. -/
theorem test_deliver_characters : (turnChars 1 (some ⟨1, [7, 8, 9, 10]⟩)).map LaneChar.data = [0x82, 4, 7, 8, 9, 10] ∧
    turnChars 2 none = [⟨true, 0x43⟩] ∧ nilChar 1 = ⟨true, 0xC2⟩ := by decide

/-- R7: character 0x43 with its mark bit set: start 0, data 1100 0010 from the low bit, mark 1, parity 0, stop 1. -/
theorem test_character_bits : (LaneChar.mk true 0x43).bits = 0b101010000110 := by decide

/-- 1.12: the turn after drop 2's is for drop 3, which is polled. -/
theorem test_turn_start : ((after (.turnStart 1) (lane1 roundLane)).lane 1).turn =
    some ⟨2, .transmitting [⟨true, 0x43⟩]⟩ := by decide +kernel

/-- 1.12: drop 3's miss makes it ABSENT. -/
theorem test_window_timeout : (((after (.answerWindowTimeout 1) (lane1 (turnLane .window))).lane 1).dropRec 2) =
    ⟨.relayed, .absent, 3⟩ := by decide +kernel

/-- 1.12: drop 5 is passed over and drop 6 gets the older of its replies, A. -/
theorem test_turn_passes_absent : ((after (.turnStart 1) (lane1 { roundLane with lastVisited := 3 })).lane 1).replies =
    [⟨5, [1, 2, 3, 4, 5, 6]⟩] := by decide +kernel

/-- 1.12: after drop 6's turn the round counter goes from 3 to 4, and the next turn is drop 2's. -/
theorem test_round_ends : ((after (.turnStart 1) (lane1 { roundLane with lastVisited := 6 })).lane 1).round = 4 ∧
    ((after (.turnStart 1) (lane1 { roundLane with lastVisited := 6 })).lane 1).lastVisited = 2 := by decide +kernel

/-- 1.12: the NIL 0xC3 of drop 3 ends its turn, counts, and leaves it PRESENT with miss count 0. -/
theorem test_nil : let l := (after (.laneCharacter 1 (clean ⟨true, 0xC3⟩)) (lane1 (turnLane .window))).lane 1
    l.turn = none ∧ l.counters.nils = 1 ∧ l.dropRec 2 = ⟨.relayed, .present, 0⟩ := by decide +kernel

/-- R15: a data character where the frame address is due discards the frame. -/
theorem test_address_error : ((after (.laneCharacter 1 (clean ⟨false, 0x03⟩)) (lane1 (turnLane .window))).lane 1).turn =
    some ⟨2, .quietWait⟩ := by decide +kernel

/-- R41: the completed frame of a RELAYED drop becomes a RELAY_UP behind the UNIT_STARTED of the reset. -/
theorem test_frame_relayed : (after (.laneCharacter 1 (clean ⟨false, 9⟩))
      (lane1 (framing [⟨true, 3⟩, ⟨false, 2⟩, ⟨false, 0x50⟩]))).bli.held =
    [.unitStarted .line, .relayUp 1 2 [0x50, 9]] := by decide +kernel

theorem test_gap_timeout : ((after (.frameGapTimeout 1) (lane1 (framing [⟨true, 3⟩]))).lane 1).counters.truncated = 1 := by
  decide +kernel
theorem test_quiet_wait_end : ((after (.quietWaitEnd 1) (lane1 (turnLane .quietWait))).lane 1).turn = none := by
  decide +kernel
theorem test_transmit_end : ((after (.laneTransmitEnd 1) (lane1 (turnLane (.transmitting [])))).lane 1).turn =
    some ⟨2, .window⟩ := by decide +kernel

/-- R18: a held character that stands counts as a bad one in the phase it arrived in. -/
theorem test_held_stands : ((after (.heldCharacterStands 1) (lane1 { framing [⟨true, 3⟩] with held := .counted })).lane
    1).counters.badCharacters = 1 := by decide +kernel

/-- R18, R19: when the low was a break the held character is not counted, and the lane enters STARTING. -/
theorem test_break : let l := (after (.breakReceived 1) (lane1 { framing [⟨true, 3⟩] with held := .counted })).lane 1
    l.counters.badCharacters = 0 ∧ l.counters.breaks = 1 ∧ l.mode = .starting .breaking := by decide +kernel

theorem test_break_end : ((after (.breakEnd 1) (lane1 { roundLane with mode := .starting .breaking })).lane 1).mode =
    .starting .gap := by decide +kernel

/-- R11: round 0 visits the lowest enrolled drop even if ABSENT. -/
theorem test_gap_end : let l := (after (.gapEnd 1) (lane1 { roundLane with
      mode := .starting .gap, round := 0, lastVisited := 0 })).lane 1
    l.mode = .serve ∧ l.lastVisited = 2 := by decide +kernel

theorem test_set_lane : ((after (.setLane 1 1 1 4) State.reset).lane 1).mode = .starting .breaking ∧
    ((after (.setLane 1 1 1 4) State.reset).lane 1).rate = 4 := by decide +kernel

/-- R10: SET_DROP numbers drops from 1. -/
theorem test_set_drop : (((after (.setDrop 1 1 8 2) State.reset).lane 1).dropRec 7).enrolment = .relayed := by
  decide +kernel

/-! ## Worked figures: the link (2.10, R27, R195) -/

/-- 2.10: frame 1 has 14 content octets and 15 on the line between its delimiters. -/
theorem test_frame_one : (contentOf 0x20 5 0 [1, 6, 0x06, 0x31, 0xA6, 0x10]).length = 14 ∧
    (escaped (contentOf 0x20 5 0 [1, 6, 0x06, 0x31, 0xA6, 0x10])).length = 15 := by decide +kernel

/-- R29: a frame with a bit wrong in its payload fails the check sequence. -/
theorem test_crc_counts : (after (.linkFrameError [0x20, 63, 0, 0, 0, 2, 1, 6, 0, 0, 0xA5]) State.reset).bli.counters.crcLength =
    1 := by decide +kernel

/-- R37: a RELAY_DOWN for lane 1, drop 6 joins that lane's reply queue. -/
theorem test_relay_down : ((after (.relayDown 1 6 [6, 0x31, 0xA6, 0x10]) (lane1 { roundLane with replies := [] })).lane
    1).replies = [⟨5, [6, 0x31, 0xA6, 0x10]⟩] := by decide +kernel

/-- R33: the end of UNIT_STARTED's transmission leaves the transmitter idle. -/
theorem test_transmit_frame_end : (after .transmitFrameEnd State.reset).bli.held = [] := by decide +kernel
theorem test_octet_boundary : (after .octetBoundaryFound State.reset).bli.phase = .frame := by decide +kernel

/-- R26: in HUNT an 0xA5 that straddles two octets, four bits into the first, sets the boundary; the four bits behind it
are the first of the next octet. -/
theorem test_hunt_straddles : let t := receiveLine (receiveLine State.reset 0x0A) 0x5F
    t.bli.phase = .frame ∧ t.bli.bits = [true, true, true, true] := by decide +kernel

/-- R26: behind a boundary found four bits into an octet, the part keeps that boundary: the octets of the READ_STATUS that
follows straddle it, and no frame is taken. On its own octets the same frame is taken. -/
theorem test_straddled_frame : let s := after (.linkFrameError [0xA6, 0x31, 0x0A, 0x5F]) State.reset
    let t := after (.readStatus 7) s
    s.bli.phase = .frame ∧ s.bli.bits = [true, true, true, true] ∧ t.bli.counters.framesTaken = 0 ∧
    t.bli.bits.length = 4 ∧ t.bli.held = s.bli.held ∧
    (after (.readStatus 7) State.reset).bli.counters.framesTaken = 1 := by decide +kernel

/-- R29: the check value published for this division (generator 0x1021, start 0xFFFF) over the octets 0x31 to 0x39. -/
theorem test_check_sequence : crc ((List.range 9).map fun n => BitVec.ofNat 8 (0x31 + n)) = 0x29B1 := by decide +kernel

/-- R197: a RENEW without a fine makes an UPDATE of 64 octets, one with a fine 192. -/
theorem test_update_sizes : let e := fun k image => (⟨k, 0, 1, 1, image⟩ : UpdateEntry)
    (Frame.payload (.update 5 18 0 [e .patron none, e .title none, e .item (some (List.replicate 32 0))] none)).length =
      64 ∧
    (Frame.payload (.update 5 18 0 [e .patron (some (List.replicate 128 0)), e .title none,
      e .item (some (List.replicate 32 0))] none)).length = 192 := by decide +kernel

/-- R24, R25: one octet time after reset with UNIT_STARTED under way its second octet stands on BTX; after the frame the
idle fill 0xA5; 1 while RSTN is asserted. -/
theorem test_octet_time : (octetTime (sending (.unitStarted .line) State.reset)).bli.sent = 1 ∧
    (List.finRange 8).map (State.reset.bli.btx false) = [true, false, true, false, false, true, false, true] ∧
    (List.finRange 8).all (State.reset.bli.btx true) = true := by decide +kernel

/-! ## Worked figures: contexts, fills, commits (3.14, 4.11, 2.10, 6.7) -/

/-- 3.14: the tags of context 5 at generation 18 and context 6 at generation 4. -/
theorem test_tags : tagOf 5 18 = 20498 ∧ tagOf 6 4 = 24580 ∧ tagSlot 20498 = 5 ∧ tagGen 20498 = 18 := by decide

/-- 3.14: RENEW, patron 70,004, item 5,120,016. -/
theorem test_parse : Request.parse 1 [0x00, 0x01, 0x11, 0x74, 0x00, 0x4E, 0x20, 0x10] = some (.renew 70004 5120016) := by
  decide +kernel

/-- 2.10, frame 4: a SEGMENT whose tag names slot 2 at generation 41 is late when the slot is at 42. -/
theorem test_late_segment : (after (.segment 0x2029 1 70004 10 0 0 (List.replicate 32 0))
      ((filling fill []).setSlot 2 ⟨42, some fill, false⟩)).bli.counters.lateTags = 1 := by decide +kernel

/-- R87, R103: a fetch timeout empties the entry and frees the slot. -/
theorem test_fetch_timeout : (after (.fetchTimeout 2) (filling fill [])).entry .patron 4 = .empty ∧
    ((after (.fetchTimeout 2) (filling fill [])).slot 2).fill = none := by decide +kernel

/-- R71, R96, R103: both waiters end with UPLINK_TIMEOUT, the first of the list first, and the slot takes up the fill that
waits. -/
theorem test_fetch_timeout_waiters : let t := after (.fetchTimeout 2) failing
    t.txn 5 = none ∧ t.txn 6 = none ∧ t.dct.counters.failed = 2 ∧ (t.lane 2).replies.map Reply.drop = [6, 3] ∧ (t.slot 2).gen = 42 ∧
    (t.slot 2).fill.map Fill.key = some 9 ∧ t.entry .patron 4 = .empty := by decide +kernel
theorem test_absent : (after (.absent 0x2029) (filling fill [])).entry .patron 4 = .empty := by decide +kernel

/-- R99: delay code 16 is taken as 15, so the delay is 150 ms. -/
theorem test_defer : ((after (.defer 0x2029 16) (filling fill [])).slot 2).fill.map Fill.phase = some (.deferred 150) := by
  decide +kernel
theorem test_defer_delay_end : ((after (.deferDelayEnd 2) (filling { fill with phase := .deferred 10 } [])).slot 2).gen =
    42 := by decide +kernel

/-- 4.11: version 10 empties an unlocked entry at version 9. -/
theorem test_invalidate : (after (.invalidate 1 70004 10) (State.reset.setEntry .patron 17
    (.valid ⟨70004, 9, [], none⟩ none []))).entry .patron 17 = .empty := by decide +kernel

/-- R76, R97: a notice at version 10 finds a TRANSIENT entry and a fill for the key; the fill takes the version, and the
entry's holder regathers. -/
theorem test_invalidate_with_fill : let s := (filling fill []).setCtx 5 ⟨18, some (txn .gather (.pay 70004 500 1))⟩
    let t := after (.invalidate 1 70004 10) (s.setEntry .patron 0 (.transient ⟨70004, 9, [], none⟩ false 5))
    (t.slot 2).fill = some { fill with highest := 10 } ∧ t.entry .patron 0 = .empty ∧
    t.dct.counters.regathers = 1 := by decide +kernel

/-- 3.14: the APPLIED result of an ABANDONED payment writes the entry through, counts and frees the context. -/
theorem test_result : let t := after (.result 0x5012 0 1 [10]) (committing.mapTxn 5 fun x => { x with abandoned := true })
    t.txn 5 = none ∧ t.dct.counters.committed = 1 ∧ t.entry .patron 0 = .valid ⟨70004, 10, [], none⟩ none [] := by
  decide +kernel
/-- 6.7: slot 0, whose fill at generation 13 completes tainted, is IDLE before its owner regathers and looks up again, and
takes up the new fill at generation 14. -/
theorem test_tainted_fill_retakes_slot :
    let f := { fill with received := [some [], some [], some [], none], version := some 14, highest := 15 }
    let s := (((State.reset.setSlot 0 ⟨13, some f, false⟩).setEntry .patron 4 (.filling 70004 [5])).setCtx 5
      ⟨1, some { txn .gather (.pay 70004 500 1) with patron := some ⟨70004, none, false⟩ }⟩)
    let t := after (.segment 13 1 70004 14 3 1 (List.replicate 32 0)) s
    (t.slot 0).gen = 14 ∧ (t.slot 0).fill.map Fill.entry = some 0 ∧ t.entry .patron 4 = .empty ∧
    t.dct.counters.regathers = 1 := by decide +kernel

theorem test_commit_timeout : (after (.commitTimeout 5) committing).dct.counters.failed = 1 := by decide +kernel
theorem test_deadline : (after (.transactionDeadline 5) (busy (txn .gather (.pay 70004 500 1)))).txn 5 = none := by
  decide +kernel

/-! ## Worked figures: arithmetic and decisions (7.6 to 7.10, 8.7, 8.8, 9.9) -/

/-- 7.7: the rounding table. -/
theorem test_rounding :
    fineOfDays 1 175 500 50 = 87 ∧ fineOfDays 1 67 500 50 = 33 ∧ fineOfDays 1 3 500 50 = 1 ∧
    fineOfDays 1 1 500 50 = 0 ∧ fineOfDays 1 201 500 30 = 141 ∧ fineOfDays 1 101 500 1 = 100 ∧
    fineOfDays 60 2500 65535 0 = 65535 ∧ fineOfDays 1 500 500 100 = 0 := by decide

/-- 7.6: the fine is 140 and the new due day 20,130, SHORTENED. -/
theorem test_late_renewal :
    (fineOf rules 19 ⟨1, 21, 3, 25, 500, 3⟩ 30 20100 20112).toOption = some 140 ∧
    (newDueDay rules 19 21 20100 20112 20130).toOption = some (some (20130, true)) := by decide +kernel

/-- 7.6, 6.7: the RENEW decision's reply: due day 20,130, fine 140, 1 renewal left, SHORTENED. -/
theorem test_renew_reply :
    replyOf (decideRenew rules 20112 70211 (patronImage 70211 6 20130 0 0 [⟨1, 460, 20000⟩])
      (titleImage 402990 0 []) (itemImage 5300442 402990 2 19 70211 20100 1)) =
        some (.renewed, [0x4E, 0xA2, 0, 140, 1, 1]) := by decide +kernel

/-- 7.9: neither renewal extends its loan. -/
theorem test_no_extension : (newDueDay rules 19 21 20150 20120 21000).toOption = some none ∧
    (newDueDay rules 19 21 20140 20120 20135).toOption = some none := by decide +kernel

/-- 7.10: the payments of 100, 400 and 465. -/
theorem test_payments : let fines : List Fine := [⟨5300442, 120, 20040⟩, ⟨6004117, 300, 20061⟩, ⟨5300442, 45, 20098⟩]
    (payOff 100 fines).map Fine.amount = [20, 300, 45] ∧
    payOff 400 fines = [⟨6004117, 20, 20061⟩, ⟨5300442, 45, 20098⟩] ∧ payOff 465 fines = [] := by decide

/-- 8.7: the first payment of 250 against 290 leaves 40; a payment with nothing owed is refused. -/
theorem test_pay_reply :
    replyOf (decidePay 250 (patronImage 71306 0 20350 1 0
        [⟨5410220, 80, 20301⟩, ⟨6120004, 150, 20322⟩, ⟨5410220, 60, 20377⟩])) =
      some (.paid, [0, 0, 0, 250, 0, 0, 0, 40]) ∧ (decidePay 100 (patronImage 71306 0 20350 1 0 [])).verdict = .refuse .nothingOwed := by
  decide +kernel

/-- 8.8: two other holds are active waiting on day 20,300. -/
theorem test_others_waiting : othersWaiting 71050 20300 (titleImage 403555 1 [⟨71050, 1, false, 20200, 0, 0⟩,
    ⟨72001, 1, false, 20201, 20320, 0⟩, ⟨72440, 1, false, 20202, 0, 0⟩, ⟨73002, 1, true, 20203, 0, 5⟩,
    ⟨74100, 1, false, 20204, 20300, 0⟩]) = 2 := by decide +kernel

/-- 9.9: the HOLD of patron 71,777 stands third. -/
theorem test_hold_position :
    replyOf (decideHold { rules with blocks := rules.blocks.set 12 (block .valid 17 [(3, .patronClass ⟨1500, 0, 5⟩)]) } 20500
      71777 7 (patronImage 71777 3 21000 0 2 []) (titleImage 404210 1 [⟨72001, 4, false, 20450, 0, 0⟩,
        ⟨73118, 19, true, 20455, 0, 50⟩])) = some (.holdPlaced, [3]) := by decide +kernel

/-- 9.9: the SUSPEND until 20,800 is held to 20,680; the READY hold of 72,001 cannot be suspended; a second RESUME
changes nothing. -/
theorem test_suspend_resume :
    replyOf (decideSuspend 20500 71777 20800 (titleImage 404210 1 [⟨71777, 7, false, 20500, 0, 0⟩])) =
      some (.holdSuspended, [0x50, 0xC8, 1]) ∧
    (decideSuspend 20500 72001 20520 (titleImage 404210 1 [⟨72001, 4, true, 20450, 0, 60⟩])).verdict =
      .refuse .notSuspendable ∧
    (decideResume 71777 (titleImage 404210 1 [⟨71777, 7, false, 20500, 0, 0⟩])).verdict = .succeed .holdResumed [] := by
  decide +kernel

/-- AU's decisions reach the context at the head of its list: a PAY with no fines is refused and the context freed. -/
theorem test_pay_command : (after .pay (deciding (txn .decide (.pay 70004 500 1)))).dct.counters.refused = 1 := by
  decide +kernel

/-! ## Worked figures: the rule store and Unit Management (R174, R175, R187, R200) -/

/-- R175: loan days 121 are written as 120 and 0 as 1; a due rate of 2,501 as 2,500. -/
theorem test_clamps : entryOf 0 0 [1, 121, 3, 0x09, 0xC5, 0, 1, 15] = .loanRule ⟨1, 120, 3, 2500, 1, 14⟩ ∧
    entryOf 12 16 [0, 0] = .windowBase 1 := by decide +kernel

theorem test_table_clear : (after (.tableClear 9 12) State.reset).rs.operation = some ⟨.clear, 12, 9, 0x0B⟩ ∧
    (after .clearComplete (running ⟨.clear, 12, 9, 0x0B⟩)).um.replies.length = 0 := by decide +kernel
theorem test_write_complete : ((after .writeComplete (running ⟨.write 16 [0x4E, 0x20], 12, 9, 0x0C⟩)).rs.block
    12).entries.getD 16 none = some (.windowBase 20000) := by decide +kernel
theorem test_close_complete : ((after .closeComplete (running ⟨.close, 12, 9, 0x0D⟩)).rs.block 12).content = .valid := by
  decide +kernel
theorem test_set_day : (after (.setDay 1 20112) State.reset).um.day = 20112 := by decide +kernel

/-- R189, R190: an idle unit is QUIESCED at once, and then a flush is DONE. -/
theorem test_quiesce : (after (.quiesce 1) State.reset).um.service = .quiesced ∧
    (after (.flushCache 2) (after (.quiesce 1) State.reset)).bli.held.length = 2 := by decide +kernel

/-- R202: the status block after reset names unit 63 and reset cause LINE. -/
theorem test_status_block : (statusBlock State.reset).length = 58 ∧ (statusBlock State.reset).getD 4 0 = 1 ∧
    (statusBlock State.reset).getD 5 0 = 63 := by decide +kernel

/-- R193: RESET_UNIT reads the straps and sends UNIT_STARTED with cause COMMAND. -/
theorem test_reset_unit : (after (.resetUnit 1 5) State.reset).bli.unitNumber = 5 ∧
    (after (.resetUnit 1 5) State.reset).bli.txQueue = [.unitStarted .command] := by decide +kernel

/-! ## Witnesses: states and operands that meet the hypotheses of the statements -/

/-- After reset every entry of every pool is EMPTY (R63). -/
theorem reset_entry (k : RecordKind) (n : Nat) : State.reset.entry k n = .empty := by
  have h : ∀ size, (List.replicate size Entry.empty)[n]?.getD .empty = Entry.empty := fun size => by
    rw [List.getElem?_replicate]; split <;> rfl
  cases k <;> exact h _

theorem reset_listening : Listening State.reset := ⟨rfl, rfl, rfl, by decide +kernel⟩
theorem reset_manageable : Manageable State.reset := ⟨reset_listening, by decide +kernel⟩

theorem witness_StepTakesFrontCommand :
    ({ State.reset with pending := [.powerLoss, .pay] } : State).pending = .powerLoss :: [.pay] := rfl

theorem witness_ResetUnitAndPowerLoss : Manageable State.reset ∧
    (running ⟨.close, 12, 9, 0x0D⟩).powered = true ∧ StoreShape (running ⟨.close, 12, 9, 0x0D⟩) ∧
    (running ⟨.close, 12, 9, 0x0D⟩).rs.operation = some ⟨.close, 12, 9, 0x0D⟩ := by
  refine ⟨reset_manageable, rfl, ⟨?_, ?_⟩, rfl⟩
  · rintro o ⟨rfl⟩; rfl
  · decide +kernel

/-- Manageable at 15 replies owed, the last number that is. -/
theorem witness_Manageable_edge : Manageable (owing 15) ∧ ¬ Manageable (owing 16) := by
  unfold Manageable Listening; decide +kernel

/-- SET_LANE: the refused octets at the ends of their ranges; an ISOLATED lane; a serving lane at its own rate. -/
theorem witness_SetLaneWithoutAbort : Manageable State.reset ∧ (4 : Octet).toNat = 4 ∧ (2 : Octet).toNat = 2 ∧
    (5 : Octet).toNat = 5 ∧ (3 : Octet).toNat = (3 : LaneId).val ∧ (4 : Octet).toNat = (4 : Fin 5).val ∧
    (State.reset.lane 3).mode = .isolated ∧ Manageable (lane1 roundLane) ∧
    ((lane1 roundLane).lane 1).mode ≠ .isolated ∧ ((lane1 roundLane).lane 1).rate = 2 := by
  unfold Manageable Listening; decide +kernel

theorem witness_SetLaneAborts : Manageable (lane1 roundLane) ∧ (1 : Octet).toNat = (1 : LaneId).val ∧
    (0 : Octet).toNat = (0 : Fin 5).val ∧ ((lane1 roundLane).lane 1).mode ≠ .isolated ∧
    ((lane1 roundLane).lane 1).rate ≠ 0 := by
  unfold Manageable Listening; decide +kernel

/-- SET_DROP: the octets next outside the ranges; a drop at the enrolment it has; another enrolment on a lane with
rounds; the first drop enrolled on an idle lane. -/
theorem witness_SetDropWithoutAbort : Manageable (lane1 roundLane) ∧ (0 : Octet).toNat = 0 ∧
    (9 : Octet).toNat = 9 ∧ (3 : Octet).toNat = 3 ∧ (8 : Octet).toNat = (7 : DropId).val + 1 ∧
    (((lane1 roundLane).lane 1).dropRec 7).enrolment = .off ∧ ((lane1 roundLane).lane 1).idle = false ∧
    Manageable (lane1 idleLane) ∧ (((lane1 idleLane).lane 1).dropRec 7).enrolment = .off ∧
    ((lane1 idleLane).lane 1).idle = true ∧ ((lane1 idleLane).lane 1).lastVisited = 0 ∧
    (∀ d, (((lane1 idleLane).lane 1).dropRec d).enrolment = .off) ∧
    (((lane1 idleLane).lane 1).dropRec 7).presence = .present ∧
    (let l := { idleLane with round := 5, drops := Vector.replicate 8 ⟨.off, .absent, 3⟩ };
      Manageable (lane1 l) ∧ (∀ d, (l.dropRec d).enrolment = .off) ∧ (l.dropRec 7).presence = .absent ∧ l.round ≠ 0) ∧
    idleLane.round = 0 := by
  unfold Manageable Listening; decide +kernel

theorem witness_SetDropOffAborts : Manageable (lane1 roundLane) ∧ (1 : Octet).toNat = (1 : LaneId).val ∧
    (6 : Octet).toNat = (5 : DropId).val + 1 ∧ (((lane1 roundLane).lane 1).dropRec 5).enrolment ≠ .off := by
  unfold Manageable Listening; decide +kernel

theorem witness_BreakThenGapThenServe :
    ((lane1 { roundLane with mode := .starting .breaking }).lane 1).mode = .starting .breaking ∧
    (let l := (lane1 { roundLane with mode := .starting .gap, round := 0, lastVisited := 0 }).lane 1;
      l.mode = .starting .gap ∧ l.round = 0 ∧ l.lastVisited = 0 ∧ (l.dropRec 1).enrolment ≠ .off ∧
        ∀ d, d < 1 → (l.dropRec d).enrolment = .off) ∧
    (let l := (lane1 { idleLane with mode := .starting .gap }).lane 1;
      l.mode = .starting .gap ∧ l.round = 0 ∧ l.lastVisited = 0 ∧ ∀ d, (l.dropRec d).enrolment = .off) := by
  decide +kernel

/-- 1.12: drop 3 qualifies after drop 2, no drop after drop 6; with no drop enrolled, none; with all ABSENT, none. -/
theorem witness_TurnVisitsLowestQualifyingDrop :
    (roundLane.mode = .serve ∧ roundLane.turn = none ∧ roundLane.idle = false ∧ Qualifies roundLane 2 ∧
      ∀ d, d < 2 → ¬ Qualifies roundLane d) ∧
    ((∀ d, ¬ Qualifies { roundLane with lastVisited := 6 } d) ∧ (roundLane.dropRec 1).enrolment ≠ .off ∧
      (roundLane.dropRec 1).presence = .present ∧ ∀ d, d < 1 → (roundLane.dropRec d).enrolment = .off) ∧
    (let l := { idleLane with idle := false, round := 7 };
      (∀ d, ¬ Qualifies l d) ∧ ∀ d, (l.dropRec d).enrolment = .off) ∧
    (let l := { roundLane with drops := Vector.replicate 8 ⟨.served, .absent, 3⟩ };
      (∀ d, ¬ Qualifies l d) ∧ (l.dropRec 0).enrolment ≠ .off ∧ (∀ d, d < 0 → (l.dropRec d).enrolment = .off) ∧
        ∀ d, (l.dropRec d).enrolment ≠ .off → (l.dropRec d).presence = .absent) := by
  unfold Qualifies; decide +kernel

/-- The round of 1.12 at its end with drop 2 ABSENT and drop 3 PRESENT: the next round visits drop 3, but the one after
round 7, with counter 0, drop 2. -/
theorem witness_TurnVisits_absent :
    let l := { roundLane with lastVisited := 6, drops := roundLane.drops.set 1 ⟨.served, .absent, 3⟩ }
    (∀ d, ¬ Qualifies l d) ∧ l.round + 1 ≠ 0 ∧ (l.dropRec 2).enrolment ≠ .off ∧ (l.dropRec 2).presence = .present ∧
      (∀ d, d < 2 → (l.dropRec d).enrolment = .off ∨ (l.dropRec d).presence = .absent) ∧
      (∀ d, ¬ Qualifies { l with round := 7 } d) ∧ (7 : Fin 8) + 1 = 0 ∧ (l.dropRec 1).enrolment ≠ .off ∧
      ∀ d, d < 1 → (l.dropRec d).enrolment = .off := by
  unfold Qualifies; decide +kernel

theorem witness_TurnEvents : (turnLane .window).mode = .serve ∧ (turnLane .window).held = .none ∧
    (turnLane (.transmitting [])).turn = some ⟨2, .transmitting []⟩ ∧ (turnLane .window).turn = some ⟨2, .window⟩ ∧
    ((turnLane .window).dropRec 2).misses = 2 ∧ ((turnLane .window).dropRec 1).misses = 0 ∧
    (turnLane .assembly).turn = some ⟨2, .assembly⟩ ∧ (turnLane .quietWait).turn = some ⟨2, .quietWait⟩ ∧
    (lane1 (turnLane .window)).powered = true ∧ ({ turnLane .window with held := .counted } : Lane).held ≠ .none := by
  decide +kernel

/-- A mask of one bit in each of the three samples; the first data bit and the parity bit; samples that are a false start
by two of three, held, noisy, of odd parity, and good. -/
theorem witness_CharactersAndNoise : (1 : BitVec 12) ≠ 0 ∧
    (receive ⟨(LaneChar.mk true 3).bits ^^^ 1, (LaneChar.mk true 3).bits, (LaneChar.mk true 3).bits⟩ = .bad) ∧
    1 ≤ 1 ∧ 1 ≤ 10 ∧ 10 ≤ 10 ∧ receive ⟨1, 1, 0⟩ = .falseStart ∧ receive ⟨0x800, 0, 0⟩ = .held ∧
    receive ⟨0x800, 0x800, 0⟩ = .bad ∧ receive ⟨0xC00, 0xC00, 0xC00⟩ = .bad ∧
    receive ⟨0x800, 0x800, 0x800⟩ = .good ⟨false, 0⟩ := by decide +kernel

/-- The first character of the window in each of its kinds, and the assembly at 1 character with lengths 1, 2, 62 and
63, and at 2 characters with more to come. -/
theorem witness_TurnCharacters : (turnLane .window).held = .none ∧
    receive (clean (addressChar 2)) = .good (addressChar 2) ∧ receive (clean (nilChar 2)) = .good (nilChar 2) ∧
    receive (clean ⟨true, 4⟩) = .good ⟨true, 4⟩ ∧ (⟨true, 4⟩ : LaneChar) ≠ addressChar 2 ∧
    (⟨true, 4⟩ : LaneChar) ≠ nilChar 2 ∧ receive ⟨0xC00, 0xC00, 0x800⟩ = .bad ∧
    receive ⟨0xFFF, 0xFFF, 0xFFF⟩ = .falseStart ∧ (framing [⟨true, 3⟩]).assembly.length = 1 ∧
    (1 : Octet).toNat < 2 ∧ 2 ≤ (2 : Octet).toNat ∧ (62 : Octet).toNat ≤ 62 ∧ 62 < (63 : Octet).toNat ∧
    (framing [⟨true, 3⟩, ⟨false, 2⟩]).assembly.length = 2 ∧
    (framing [⟨true, 3⟩, ⟨false, 2⟩]).assembly.length + 1 < 2 + (framing [⟨true, 3⟩, ⟨false, 2⟩]).bodyLength := by
  decide +kernel

/-- The longest body, of 62 characters, and a drop turned OFF. -/
theorem witness_FrameCompletes :
    (let l := framing (⟨true, 3⟩ :: ⟨false, 62⟩ :: List.replicate 61 ⟨false, 7⟩);
      l.mode = .serve ∧ l.held = .none ∧ 2 ≤ l.assembly.length ∧ l.assembly.length + 1 = 2 + l.bodyLength ∧
        (l.dropRec 2).enrolment ≠ .off) ∧
    (let l := { framing [⟨true, 3⟩, ⟨false, 2⟩, ⟨false, 7⟩] with drops := Vector.replicate 8 DropRecord.reset };
      l.assembly.length + 1 = 2 + l.bodyLength ∧ (l.dropRec 2).enrolment = .off) ∧
    receive (clean ⟨false, 7⟩) = .good ⟨false, 7⟩ := by decide +kernel

theorem witness_HeldCharacterStandsOrWaits : receive ⟨0, 0, 0⟩ = .held ∧ (turnLane .window).held = .none ∧
    roundLane.turn = none ∧ ({ turnLane .window with held := .counted } : Lane).turn = some ⟨2, .window⟩ ∧
    ({ framing [⟨true, 3⟩] with held := .counted } : Lane).turn = some ⟨2, .assembly⟩ ∧
    ({ roundLane with held := .ignored } : Lane).held = .ignored ∧ receive ⟨0xFFF, 0xFFF, 0xFFF⟩ = .falseStart ∧
    receive (clean ⟨false, 7⟩) ≠ .falseStart := by decide +kernel

theorem witness_BreakAbortsLane : (lane1 roundLane).powered = true ∧ ((lane1 roundLane).lane 1).mode = .serve ∧
    ((lane1 roundLane).lane 1).turn = none ∧ (State.reset.lane 1).mode ≠ .serve ∧
    ((lane1 (turnLane (.transmitting []))).lane 1).turn = some ⟨2, .transmitting []⟩ := by
  decide +kernel

/-- An abort of lane 2 finds context 5 alone there: a lock in GATHER, a stale one, and a TRANSIENT entry. -/
theorem witness_Aborted_releases : let x := txn .gather (.pay 70004 500 1)
    x.lane = 2 ∧ x.state ≠ .commit ∧ x.need .patron = some ⟨70004, some 0, true⟩ ∧ (busy x).txn 5 = some x ∧
    (∀ d, d ≠ 5 → (busy x).txn d = none) ∧ (busy x).entry .patron 0 = locked 70004 [] ∧
    (∀ e ∈ ([.valid ⟨70004, 9, [], some 10⟩ (some 5) [], .transient ⟨70004, 9, [], none⟩ false 5] : List Entry),
      ((busy x).setEntry .patron 0 e).entry .patron 0 = e) ∧
    ∀ m copy o ws, (busy x).entry .patron m = .valid copy o ws → 5 ∉ ws := by
  refine ⟨rfl, by decide, rfl, by decide +kernel, by decide +kernel, by decide +kernel, by decide +kernel, ?_⟩
  have all : ∀ e ∈ ((busy (txn .gather (.pay 70004 500 1))).pool .patron).entries, ∀ copy o ws,
      e = .valid copy o ws → ws = [] := by
    intro e h
    rcases List.mem_or_eq_of_mem_set h with h | h
    · rw [List.eq_of_mem_replicate h]; intro _ _ _ h; cases h
    · rw [h]; intro _ _ _ h; cases h; rfl
  intro m copy o ws h
  have h' : ((busy (txn .gather (.pay 70004 500 1))).pool .patron).entries[m]?.getD .empty = .valid copy o ws := by
    rw [← List.getD_eq_getElem?_getD]; exact h
  cases g : ((busy (txn .gather (.pay 70004 500 1))).pool .patron).entries[m]? with
  | none => rw [g] at h'; cases h'
  | some e => rw [g] at h'; simp [all e (List.mem_of_getElem? g) copy o ws h']

/-- R73, R76: after the abort the stale lock's entry and the TRANSIENT one are EMPTY. -/
theorem test_abort_releases :
    let s := (busy (txn .gather (.hold 70004 9 7))).setLane 2 roundLane
    let t := after (.breakReceived 2) ((s.setEntry .patron 0 (.valid ⟨70004, 9, [], some 10⟩ (some 5) [])).setEntry
      .title 0 (.transient ⟨9, 9, [], none⟩ false 5))
    t.txn 5 = none ∧ t.entry .patron 0 = .empty ∧ t.entry .title 0 = .empty := by decide +kernel

/-- Bodies of 1, 2, 62 and 63 characters; queues of 15 and 16 replies. -/
theorem witness_ReplyAdmission : Lane.reset.mode = .isolated ∧ roundLane.mode ≠ .isolated ∧
    (roundLane.dropRec 0).enrolment = .off ∧ (roundLane.dropRec 1).enrolment ≠ .off ∧
    (List.replicate 1 (0 : Octet)).length < 2 ∧ 2 ≤ (List.replicate 2 (0 : Octet)).length ∧
    (List.replicate 62 (0 : Octet)).length ≤ 62 ∧ 62 < (List.replicate 63 (0 : Octet)).length ∧
    (List.replicate 15 (⟨1, [0, 0]⟩ : Reply)).length < 16 ∧ 16 ≤ (List.replicate 16 (⟨1, [0, 0]⟩ : Reply)).length := by
  decide

/-- The receiver between bits in each phase: six and seven bits held, the eighth making 0xA5 or not, and a delimiter and
a bad escape taken in FRAME. -/
theorem witness_ReceiverTable_bits :
    let s : State := { State.reset with bli := { State.reset.bli with bits := (octetBits 0xA5).take 7 } }
    let t : State := { s with bli := { s.bli with phase := .frame, escape := true } }
    s.bli.bits.length = 7 ∧ (s.bli.bits.drop 1).length < 7 ∧ s.bli.phase = .hunt ∧
    octetOfBits (s.bli.bits ++ [true]) = 0xA5 ∧ octetOfBits (s.bli.bits ++ [false]) ≠ 0xA5 ∧ t.bli.phase = .frame ∧
    (receiveOctet { t with bli := { t.bli with bits := [] } } 0xA5).bli.phase = .frame ∧
    (receiveOctet { t with bli := { t.bli with bits := [] } } 0xA4).bli.phase = .hunt := by decide +kernel

/-- The receiver in FRAME at the lengths 0, 1, 7, 8, 487 and 488 of its assembly, with and without an escape. -/
theorem witness_ReceiverTable (n : Nat) (escape : Bool) (h : n ≤ 488) :
    let s : State := { State.reset with bli := { State.reset.bli with
      phase := .frame, assembly := List.replicate n 0, escape := escape } }
    s.bli.phase = .frame ∧ s.bli.assembly.length = n ∧ s.bli.assembly.length ≤ 488 ∧ s.bli.escape = escape := by
  simp [h]

theorem witness_FramesOnTheLineAreTheirCommands : Listening State.reset ∧
    (Instr.readStatus 7).wellFormed = true ∧ encodeFrame (.readStatus 7) = some (0x26, 0, [7, 0x08]) ∧
    (Instr.resetUnit 7 63).wellFormed = true ∧ (63 : BitVec 6) = State.reset.bli.unitNumber :=
  ⟨reset_listening, rfl, rfl, rfl, rfl⟩

/-- A receiver whose boundary lies four bits off a frame's octets, and one that hunts with the first five bits of 0xA5 held,
so that it finds a boundary inside the delimiter. -/
theorem witness_FramesOnTheLineAreTheirCommands_straddled :
    (let s := after (.linkFrameError [0xA6, 0x31, 0x0A, 0x5F]) State.reset;
      s.powered = true ∧ (receiveLine s 0xA5).bli.bits ≠ []) ∧
    (let s := State.reset.withBits [true, false, true, false, false];
      (receiveLine s 0xA5).bli.phase = .frame ∧ (receiveLine s 0xA5).bli.bits ≠ []) := by decide +kernel

/-- Kinds 0x1F and 0x27; a RELAY_DOWN of 1 octet, a SEGMENT of 44, a DEFER of 2, a RESULT of 18; a content of 8 octets with a wrong length, an octet that is no escape. -/
theorem witness_BadFramesAreCounted : Listening State.reset ∧ (7 : Octet) ≠ State.reset.bli.unitNumber.setWidth 8 ∧
    (0x1F : Octet).toNat < 0x20 ∧ 0x26 < (0x27 : Octet).toNat ∧
    ¬ 2 ≤ ([7] : List Octet).length ∧ (List.replicate 44 (0 : Octet)).length ≠ 43 ∧ ([7, 7] : List Octet).length ≠ 1 ∧
    (List.replicate 18 (0 : Octet)).length ∉ [2, 6, 10, 14] ∧
    (List.replicate 8 (1 : Octet)).length ≠ natAt (List.replicate 8 1) 4 2 + 8 ∧
    crc ([0x22, 63, 0, 0, 0, 0, 0, 0].take 6) ≠ BitVec.ofNat 16 (natAt [0x22, 63, 0, 0, 0, 0, 0, 0] 6 2) ∧
    State.reset.bli.phase = .hunt := by
  unfold Listening; decide +kernel

theorem witness_RelayDownOffersReply : Listening State.reset ∧ (List.replicate 478 (0 : Octet)).length ≤ 478 ∧
    (4 : Octet).toNat = 4 ∧ (9 : Octet).toNat = 9 ∧ (3 : Octet).toNat = (3 : LaneId).val ∧
    (8 : Octet).toNat = (7 : DropId).val + 1 := by
  unfold Listening; decide +kernel

/-- 2.11: 18 RELAY_UP frames held admit one more, 19 do not; the share is met at 19. -/
theorem witness_RelayShareAtOffer : (relaying 17).bli.relaysHeld = 18 ∧ (relaying 18).bli.relaysHeld = 19 ∧
    RelayShare (relaying 18) := by
  unfold RelayShare; decide +kernel

/-- Each kind of frame at the end of its transmission, with and without something owed; a UNIT_STARTED that the idle
transmitter has still to take up; an empty line. -/
theorem witness_TransmitEndStartsNextFrame :
    (sending (.relayUp 0 0 [1, 2]) State.reset).bli.held = [.relayUp 0 0 [1, 2]] ∧
    State.reset.bli.held = [.unitStarted .line] ∧ State.reset.bli.transmitting = none ∧
    (relaying 1).bli.held = .relayUp 0 0 [1, 2] :: [.relayUp 0 0 [1, 2]] ∧
    (after .transmitFrameEnd State.reset).bli.held = [] ∧
    (sending (.fetch 2 41 .patron 70004 0 4) (filling fill [])).bli.held = [.fetch 2 41 .patron 70004 0 4] ∧
    isFetchOf 2 (.fetch 2 41 .patron 70004 0 4) = true ∧ isUpdateOf 5 (.update 5 18 0 [] none) = true ∧
    isMgmtReply (.mgmtReply 1 8 .done []) = true ∧
    ((filling { fill with owed := some (2, 2) } []).slot 2).fill = some { fill with owed := some (2, 2) } ∧
    ((filling fill []).slot 2).fill = some fill ∧ fill.owed = none ∧ (committing.commitRec 5).owed = none ∧
    ((committing.setCommitRec 5 ⟨true, true, some (.update 5 18 1 [] none)⟩).commitRec 5).owed =
      some (.update 5 18 1 [] none) ∧
    (owing 2).um.replies = ⟨1, 8, .done, []⟩ :: [⟨1, 8, .done, []⟩] ∧ (owing 0).um.replies = [] ∧
    State.reset.powered = true ∧ State.reset.pending = [] ∧
    (sending (.relayUp 0 0 [1, 2]) State.reset).bli.held ≠ [] ∧
    ((Frame.relayUp 0 0 [1, 2]).line 63)[0]? = some 0xA5 := by decide +kernel

/-- Dispatch: a SERVED drop with the county day unknown and known, and one or two of its requests in flight. -/
theorem witness_DispatchTreatsFrames : (roundLane.dropRec 1).enrolment = .served ∧
    (roundLane.dropRec 2).enrolment = .relayed ∧ 8 ≤ (8 : Octet).toNat ∧ (1 : Octet).toNat = 1 ∧ (7 : Octet).toNat ≤ 7 ∧
    State.reset.um.override = .localKinds ∧ State.reset.um.day = 0 ∧ State.reset.um.service = .normal ∧
    (lane1 roundLane).um.day = 0 ∧ (flying (busy (txn .gather (.account 70004))) 2 3).length = 1 ∧
    (∃ x ∈ flying (busy (txn .gather (.account 70004))) 2 3, x.kioskTag = 0x31) ∧
    (flying ((busy (txn .gather (.account 70004))).setTxn 6 (some (txn .gather (.account 70005)))) 2 3).length = 2 ∧
    LowestFree State.reset 0 ∧ LowestFree ((busy (txn .gather (.account 70004))).setTxn 0
      (some (txn .gather (.account 70005)))) 1 ∧ Request.parse 7 [0, 0, 0, 0] = none := by
  unfold LowestFree; decide +kernel

/-- Dispatch: a state that accepts a SERVED drop's request, and the same state with service QUIESCED. -/
theorem witness_DispatchTreatsFrames_accepts :
    let s := (lane1 roundLane).mapUm fun u => { u with day := 22000 }
    ((s.lane 1).dropRec 1).enrolment = .served ∧ s.um.override = .localKinds ∧ s.um.day ≠ 0 ∧ s.um.service = .normal ∧
    Request.parse 7 (beOctets 4 70004) = some (.account 70004) ∧ (flying s 1 1).length < 2 ∧
    (∀ x ∈ flying s 1 1, x.kioskTag ≠ 0x31) ∧ LowestFree s 0 ∧
    (s.mapUm fun u => { u with service := .quiesced }).um.service ≠ .normal := by
  unfold LowestFree; decide +kernel

/-- The part with a patron pool of a few entries, in use in their order, and context 7 in its allocation queue. -/
def pooled (es : List Entry) : State := State.reset.setPool .patron ⟨es, List.range es.length, [7]⟩

theorem pooled_pool (es : List Entry) : (pooled es).pool .patron = ⟨es, List.range es.length, [7]⟩ := rfl
theorem pooled_entry (es : List Entry) (n : Nat) : (pooled es).entry .patron n = es.getD n .empty := rfl

/-- Lookups: a VALID and a FILLING entry with the key; none, with entry 0 the lowest EMPTY one; a pool of two entries, the
second evictable and the first locked; one with no room; all four slots filling; an IDLE slot. -/
theorem witness_DispatchTreatsFrames_lookups :
    let v : Entry := .valid ⟨70004, 9, [], none⟩ none []
    (HoldsKey (pooled [v]) .patron 70004 0 ∧ ∀ m, HoldsKey (pooled [v]) .patron 70004 m → m = 0) ∧
    (HoldsKey (pooled [.filling 70004 [6]]) .patron 70004 0 ∧
      ∀ m, HoldsKey (pooled [.filling 70004 [6]]) .patron 70004 m → m = 0) ∧
    (Takes (pooled [.empty]) .patron 0 ∧ ∀ n, ¬ HoldsKey (pooled [.empty]) .patron 70004 n) ∧
    Takes (pooled [locked 1 [], v]) .patron 1 ∧ (∀ n, ¬ Takes (pooled [locked 1 []]) .patron n) ∧
    0 ∈ ((pooled [v]).pool .patron).lru ∧
    (State.reset.slot 0).fill = none ∧ (∀ j : SlotId, j < 0 → (State.reset.slot j).fill ≠ none) ∧
    (∀ i, (State.slot { State.reset with fu := ⟨Vector.replicate 4 ⟨41, some fill, true⟩, []⟩ } i).fill ≠ none) := by
  refine ⟨⟨rfl, ?_⟩, ⟨rfl, ?_⟩, ⟨?_, ?_⟩, ?_, ?_, by decide +kernel, by decide +kernel, by decide +kernel,
    by decide +kernel⟩
  · intro m h; rcases m with _ | m <;> simp [HoldsKey, pooled_entry] at h ⊢
  · intro m h; rcases m with _ | m <;> simp [HoldsKey, pooled_entry] at h ⊢
  · exact .inl (by simp [pooled_entry, pooled_pool])
  · intro n; rcases n with _ | n <;> simp [HoldsKey, pooled_entry]
  · refine .inr ⟨?_, ⟨_, rfl⟩, [0], [], rfl, ?_⟩
    · intro m h; rw [pooled_pool] at h; rcases m with _ | _ | m <;> simp [pooled_entry, locked] at h ⊢
    · simp [Evictable, pooled_entry, locked]
  · intro n h
    rcases h with ⟨h, h', _⟩ | ⟨_, ⟨c, h⟩, _⟩
    · rcases n with _ | n <;> simp [pooled_entry, pooled_pool, locked] at h h'
    · rcases n with _ | n <;> simp [pooled_entry, locked] at h

theorem witness_RequestsParse : (1 : Key) ≠ 0 ∧ (0xFFFFFFFF : Key) ≠ 0 ∧ (0 : Key) = 0 ∧
    ([] : List Octet).length ≠ 8 ∧ (List.replicate 8 (0 : Octet)).length ≠ 9 := by decide +kernel

theorem witness_ContextEnds : (busy (txn .gather (.pay 70004 500 1))).txn 5 = some (txn .gather (.pay 70004 500 1)) := by
  decide +kernel

/-- A held entry that is a lock without a waiter, with one, stale, and owned TRANSIENT. -/
theorem witness_ContextEnds_releases :
    let s := busy (txn .gather (.pay 70004 500 1))
    (txn .gather (.pay 70004 500 1)).need .patron = some ⟨70004, some 0, true⟩ ∧
    (∀ e ∈ ([.valid ⟨70004, 9, [], none⟩ (some 5) [], .valid ⟨70004, 9, [], none⟩ (some 5) [6],
        .valid ⟨70004, 9, [], some 10⟩ (some 5) [6], .transient ⟨70004, 9, [], none⟩ false 5] : List Entry),
      (s.setEntry .patron 0 e).entry .patron 0 = e ∧ ((s.setEntry .patron 0 e).txn 5).isSome = true) ∧
    [6].filter (fun v : CtxId => decide (v ≠ 5)) = 6 :: [] := by decide +kernel

/-- A regather with a count of 0, 1 and 2, past the deadline, and ABANDONED. -/
theorem witness_RegatherOrEnd (n : Nat) (deadline : Deadline) (abandoned : Bool) :
    let x := { txn .decide (.pay 70004 500 1) with regathers := n, deadline := deadline, abandoned := abandoned }
    ((State.reset.setCtx 5 ⟨18, some x⟩).txn 5) = some x := by
  simp [State.txn, State.ctx, State.setCtx]

theorem witness_DeadlineAndCommitTimeout : committing.powered = true ∧ (committing.txn 5).map Txn.state = some .commit ∧
    (committing.txn 5).bind Txn.outstanding = some update ∧ (committing.commitRec 5).timerRunning = true ∧
    (State.reset.commitRec 5).timerRunning = false ∧
    (busy (txn .decide (.pay 70004 500 1))).txn 5 = some (txn .decide (.pay 70004 500 1)) := by decide +kernel

/-- SEGMENT: a late generation and index 4 of a patron; the last index, 3; a second version; a repeated index; a first
index with others missing; END with index 0 missing. -/
theorem witness_SegmentsAreTested : Listening (filling fill []) ∧ (List.replicate 32 (0 : Octet)).length = 32 ∧
    (0x202A : Tag).toNat % 4096 ≠ 41 ∧ (0x2029 : Tag).toNat / 4096 = (2 : SlotId).val ∧
    ((filling fill []).slot 2).gen.toNat = (0x2029 : Tag).toNat % 4096 ∧ ((filling fill []).slot 2).fill = some fill ∧
    ((filling fill []).slot 2).onLine = false ∧ fill.received.length = fill.kind.segments ∧
    fill.kind.segments ≤ (4 : Octet).toNat ∧ (3 : Octet).toNat < fill.kind.segments ∧
    ({ fill with version := some 9 } : Fill).version = some 9 ∧ (9 : Version) ≠ 10 ∧
    ({ fill with received := [none, none, none, some []] } : Fill).received.getD 3 none ≠ none ∧
    fill.received.getD 3 none = none ∧ fill.received.getD 0 none = none ∧ (2 : Octet).getLsbD 1 = true ∧
    (1 : Octet).getLsbD 1 = false ∧
    ({ fill with received := [some [], none, none, some []] } : Fill).received.getD 1 none = none ∧
    (∀ j, j < 1 → ({ fill with received := [some [], none, none, some []] } : Fill).received.getD j none ≠ none) ∧
    (((filling fill []).setSlot 2 ⟨41, some fill, true⟩).slot 2).onLine = true ∧
    Listening ((filling fill []).setSlot 2 ⟨41, some fill, true⟩) := by
  unfold Listening; decide +kernel

/-- The fourth segment of a patron with three held; KEEP set and clear; at the highest version seen and below it. -/
theorem witness_FillCompletes :
    let f := { fill with received := [some [], some [], some [], none], version := some 9, highest := 9 }
    Listening (filling f []) ∧ ((filling f []).slot 2).fill = some f ∧ f.received.getD 3 none = none ∧
    (∀ j, j < 4 → j ≠ 3 → f.received.getD j none ≠ none) ∧ (filling f []).entry f.kind f.entry = .filling f.key [] ∧
    ((filling f []).pool f.kind).queue = [] ∧ (filling f []).fu.waiting = [] ∧
    (filling f []).um.service ≠ .quiescing ∧ (1 : Octet).getLsbD 0 = true ∧ f.highest.toNat ≤ (9 : Version).toNat ∧
    (8 : Version).toNat < f.highest.toNat ∧
    (filling f [6, 5]).entry f.kind f.entry = .filling f.key [6, 5] ∧ Listening (filling f [5]) ∧
    f.entry ∈ ((filling f [6, 5]).pool f.kind).lru ∧
    (let x := { txn .gather (.pay 70004 500 1) with patron := some ⟨70004, none, false⟩ };
      ((filling f [5]).setTxn 5 (some x)).txn 5 = some x ∧ x.abandoned = false ∧ x.regathers < 2 ∧
        x.deadline = .running) ∧
    (let s : State := { filling f [5] with fu := { (filling f [5]).fu with waiting := [⟨.item, 3, 9, 0⟩] } };
      s.fu.waiting = ⟨.item, 3, 9, 0⟩ :: [] ∧ ((finishSlot 2 s).slot 2).gen = 42) := by
  unfold Listening; decide +kernel

/-- A fill with no waiter, with one and with two, at its fourth and fifth DEFER; with and without a fill waiting; a stale
tag; a DEFERRED slot. -/
theorem witness_FillsFail : Listening (filling fill []) ∧ ((filling fill []).slot 2).fill = some fill ∧
    (filling fill []).entry .patron 4 = .filling 70004 [] ∧ ((filling fill []).pool .patron).queue = [] ∧
    (filling fill [5]).entry .patron 4 = .filling 70004 [5] ∧
    ((filling fill [5]).setTxn 5 (some (txn .gather (.pay 70004 500 1)))).txn 5 =
      some (txn .gather (.pay 70004 500 1)) ∧ 4 ≤ ({ fill with defers := 4 } : Fill).defers ∧
    Listening failing ∧ (failing.slot 2).fill = some fill ∧ fill.phase = .requested ∧ ([6, 5] : List CtxId).Nodup ∧
    failing.entry .patron 4 = .filling 70004 [6, 5] ∧ failing.fu.waiting = ⟨.item, 3, 9, 0⟩ :: [] ∧
    (filling fill [6, 5]).fu.waiting = [] ∧ failing.txn 6 ≠ none ∧ failing.txn 5 ≠ none ∧
    (0x202A : Tag).toNat % 4096 ≠ 41 ∧ ({ fill with phase := .deferred 10 } : Fill).phase ≠ .requested := by
  unfold Listening; decide +kernel

/-- Delay codes 0, 1, 15, 16; the third DEFER before the last; a DEFERRED slot with its FETCH on the line and not. -/
theorem witness_DeferDelaysThenRefetches : Listening (filling fill []) ∧
    ({ fill with defers := 3 } : Fill).defers < 4 ∧ 15 < (16 : Octet).toNat ∧ ¬ 15 < (15 : Octet).toNat ∧
    ((filling { fill with phase := .deferred 10 } []).slot 2).onLine = false ∧
    (((filling fill []).setSlot 2 ⟨41, some { fill with phase := .deferred 10 }, true⟩).slot 2).onLine = true := by
  unfold Listening; decide +kernel

/-- A notice just above and at the version of an unlocked entry, of an entry locked in COMMIT, and of a fill; kinds 0
and 4; key 0. -/
theorem witness_InvalidateActsOnEntriesAndFills :
    let s := State.reset.setEntry .patron 17 (.valid ⟨70004, 9, [], none⟩ none [])
    Listening s ∧ (70004 : Key) ≠ 0 ∧ s.um.service ≠ .quiescing ∧ (s.pool .patron).queue = [] ∧
    17 < (s.pool .patron).entries.length ∧ s.entry .patron 17 = .valid ⟨70004, 9, [], none⟩ none [] ∧
    (∀ i : SlotId, (s.slot i).fill = none) ∧ s.fu.waiting = [] ∧ (9 : Version).toNat < (10 : Version).toNat ∧
    committing.entry .patron 0 = .valid ⟨70004, 9, [], none⟩ (some 5) [] ∧
    ((filling fill []).slot 2).fill = some fill ∧ (4 : Octet).toNat = 4 ∧ (0 : Octet).toNat = 0 := by
  unfold Listening; decide +kernel

/-- A notice for a key nobody holds; for an entry a context holds locked in DECIDE, alone at that version, with a regather
count of 1 and of 2; for one held in COMMIT; for one owned TRANSIENT in COMMIT and by an ACCOUNT context. -/
theorem witness_InvalidateActsOnEntriesAndFills_held :
    let x := txn .decide (.pay 70004 500 1)
    let owned : Entry := .transient ⟨70004, 9, [], none⟩ false 5
    (∀ n, ¬ Superseded State.reset .patron 70004 10 n) ∧ (∀ i : SlotId, (State.reset.slot i).fill = none) ∧
    Superseded (busy x) .patron 70004 10 0 ∧ (∀ m, m ≠ 0 → ¬ Superseded (busy x) .patron 70004 10 m) ∧
    (busy x).entry .patron 0 = .valid ⟨70004, 9, [], none⟩ (some 5) [] ∧ (busy x).txn 5 = some x ∧
    x.state ≠ .commit ∧ x.need .patron = some ⟨70004, some 0, true⟩ ∧ x.abandoned = false ∧ x.deadline = .running ∧
    (committing.txn 5).map Txn.state = some .commit ∧ Listening (busy x) ∧
    (committing.setEntry .patron 0 owned).entry .patron 0 = owned ∧
    ((busy (txn .decide (.account 70004))).setEntry .patron 0 owned).entry .patron 0 = owned ∧
    (9 : Version).toNat < (10 : Version).toNat := by
  have b : ∀ m, m ≠ 0 → (busy (txn .decide (.pay 70004 500 1))).entry .patron m = .empty := by
    intro m h
    unfold busy
    rw [State.entry_setEntry_kind _ _ _ _ (by decide), State.entry_setEntry_kind _ _ _ _ (by decide),
      State.entry_setEntry_ne _ _ _ (Ne.symm h)]
    exact reset_entry .patron m
  have z : (busy (txn .decide (.pay 70004 500 1))).entry .patron 0 = .valid ⟨70004, 9, [], none⟩ (some 5) [] := by
    decide +kernel
  refine ⟨?_, by decide +kernel, by unfold Superseded; rw [z]; decide, ?_, by decide +kernel, by decide +kernel, by decide, by decide +kernel,
    rfl, rfl, by decide +kernel, ⟨rfl, rfl, rfl, by decide +kernel⟩, by decide +kernel, by decide +kernel, by decide⟩
  · intro n h; unfold Superseded at h; rw [reset_entry] at h; exact h
  · intro m hm h; unfold Superseded at h; rw [b m hm] at h; exact h

/-- The RESULT of 3.14's context 5, and one with no busy context, with outcome 4, and with attempt 1. -/
theorem witness_ResultsAreTested : Listening committing ∧ ([10] : List Version).length ≤ 3 ∧
    (committing.txn 5).map Txn.state = some .commit ∧ (committing.txn 5).bind Txn.outstanding = some update ∧
    (0 : Octet).toNat = update.attempt ∧ ([10] : List Version).length = update.entries.length ∧
    State.reset.txn 5 = none ∧ (4 : Octet).toNat = 4 ∧ (1 : Octet).toNat ≠ update.attempt ∧
    ([] : List Version).length ≠ update.entries.length := by
  unfold Listening; decide +kernel

theorem witness_OutcomeSettlesEntries : 0 < (committing.pool .patron).entries.length ∧
    committing.entry .patron 0 = .valid ⟨70004, 9, [], none⟩ (some 5) [] ∧
    (∀ e ∈ update.entries, e.kind = .patron ∧ e.entry = 0 ∧ e.image = some []) ∧
    (let s := committing.setEntry .patron 0 (.transient ⟨70004, 9, [], none⟩ true 5);
      s.entry .patron 0 = .transient ⟨70004, 9, [], none⟩ true 5 ∧ holdsEntry 5 .patron 0 s = true ∧
        0 ∈ (s.pool .patron).lru) ∧
    (∀ copy ws, (committing.setEntry .patron 0 .empty).entry .patron 0 ≠ .valid copy (some 5) ws) ∧
    (∀ copy tainted, (committing.setEntry .patron 0 .empty).entry .patron 0 ≠ .transient copy tainted 5) := by
  refine ⟨by decide +kernel, by decide +kernel, by decide +kernel, by decide +kernel, ?_, ?_⟩ <;>
    intro a b h <;> exact Entry.noConfusion h

/-- Each request at the head of AU's list, with every record it reads in an entry it holds. -/
theorem witness_DecisionsTakeTheHeadContext :
    (∀ q ∈ ([.renew 70004 9, .pay 70004 500 1, .account 70004, .hold 70004 9 7, .cancel 70004 9, .suspend 70004 9 20800,
        .resume 70004 9] : List Request), (deciding (txn .decide q)).au.list = [5] ∧
      (deciding (txn .decide q)).txn 5 = some (txn .decide q) ∧
      (readCopy 5 (txn .decide q) .patron (deciding (txn .decide q))).isSome = true) ∧
    (∀ q ∈ ([.renew 70004 9, .hold 70004 9 7, .cancel 70004 9, .suspend 70004 9 20800, .resume 70004 9] : List Request),
      (readCopy 5 (txn .decide q) .title (deciding (txn .decide q))).isSome = true) ∧
    (readCopy 5 (txn .decide (.renew 70004 9)) .item (deciding (txn .decide (.renew 70004 9)))).isSome = true ∧
    ({ txn .decide (.account 70004) with patronCopy := some [] } : Txn).patronCopy = some [] ∧
    (let x := { txn .decide (.renew 70004 9) with title := none };
      (deciding x).txn 5 = some x ∧ (readCopy 5 x .patron (deciding x)).isSome = true ∧
        readCopy 5 x .item (deciding x) = some ⟨9, 9, [], none⟩ ∧ titleNeed [] 70004 = none) := by decide +kernel

/-- A context in GATHER at each step: a RENEW with its item present and its title need unsettled; its patron missing, or
its title after the patron; an ACCOUNT with its patron present; the first lock free, held by another, and lost; all locks
held; and a RENEW whose item no longer shows the loan. -/
theorem witness_DecisionsTakeTheHeadContext_gather :
    let need : Option Need := some ⟨70004, some 0, false⟩
    let pay := { txn .gather (.pay 70004 500 1) with patron := need }
    let account := { txn .gather (.account 70004) with patron := need }
    let renew := { txn .gather (.renew 70004 9) with titleSettled := false, title := none }
    let free : Entry := .valid ⟨70004, 9, [], none⟩ none []
    (renew.titleSettled = false ∧ renew.item = some ⟨9, some 0, true⟩ ∧ Good (busy renew) 5 .item 9 0 ⟨9, 9, [], none⟩) ∧
    (({ pay with patron := some ⟨70004, none, false⟩ } : Txn).need .patron = some ⟨70004, none, false⟩ ∧
      ∀ j ∈ before .patron, Present pay j) ∧
    ((∀ k, Present account k) ∧ Good (busy account) 5 .patron 70004 0 ⟨70004, 9, [], none⟩) ∧
    ((∀ j, Present pay j) ∧ pay.need .patron = some ⟨70004, some 0, false⟩ ∧ (∀ j ∈ before .patron, Locked pay j) ∧
      ((busy pay).setEntry .patron 0 free).entry .patron 0 = free ∧ (6 : CtxId) ≠ 5 ∧
      ∀ copy, ¬ Good ((busy pay).setEntry .patron 0 .empty) 5 .patron 70004 0 copy) ∧
    (∀ k, Locked (txn .gather (.pay 70004 500 1)) k) ∧
    (let x := txn .gather (.renew 70004 9);
      (∀ k, Locked x k) ∧ x.titleSettled = true ∧ x.item = some ⟨9, some 0, true⟩ ∧
        Good (busy x) 5 .item 9 0 ⟨9, 9, [], none⟩ ∧ (titleNeed [] 70004).map Need.key ≠ x.title.map Need.key ∧
        (busy x).entry .item 0 = .valid ⟨9, 9, [], none⟩ (some 5) []) := by
  refine ⟨⟨rfl, rfl, .inl ⟨rfl, _, _, rfl⟩⟩, ⟨rfl, by simp [before, RecordKind.order]⟩, ⟨?_, .inl ⟨rfl, _, _, rfl⟩⟩,
    ⟨?_, rfl, by simp [before, RecordKind.order], by decide +kernel, by decide, ?_⟩, ?_, ?_, rfl, rfl,
    .inl ⟨rfl, _, _, rfl⟩, by decide +kernel, by decide +kernel⟩
  · intro k m h; cases k <;> cases h; simp
  · intro k m h; cases k <;> cases h; simp
  · intro copy h; rcases h with ⟨_, _, _, h⟩ | ⟨_, h⟩ <;> exact Entry.noConfusion h
  · intro k m h; cases k <;> cases h; simp
  · intro k m h; cases k <;> cases h <;> simp

/-- A decision of each kind, and the UPDATE mark of the context set and clear. -/
theorem witness_DecisionOutcomes : (decidePay 0 []).verdict = .refuse .badRequest ∧
    (decideResume 71777 (titleImage 404210 1 [⟨71777, 7, false, 20500, 0, 0⟩])).verdict = .succeed .holdResumed [] ∧
    (decideAccount State.reset.rs (patronImage 70004 3 21000 0 0 [])).verdict = .wait 12 ∧
    replyOf (decidePay 1 (patronImage 70004 3 21000 0 0 [⟨9, 1, 20000⟩])) = some (.paid, [0, 0, 0, 1, 0, 0, 0, 0]) ∧
    (busy (txn .decide (.pay 70004 500 1))).txn 5 = some (txn .decide (.pay 70004 500 1)) ∧
    (State.reset.commitRec 5).onLine = false ∧ (⟨true, true, none⟩ : CommitRecord).onLine = true ∧
    (let x := txn .decide (.hold 70004 9 7);
      x.need .title = some ⟨9, some 0, true⟩ ∧ readCopy 5 x .title (busy x) = some ⟨9, 9, [], none⟩ ∧
        (updateEntries 5 x ⟨some [1], some [2], none⟩ (busy x)).map (fun e => (e.kind, e.key, e.version, e.image)) =
          [(.patron, 70004, 9, some [1]), (.title, 9, 9, some [2])]) := by decide +kernel

/-- 7.6's images pass every early check, its blocks serve every read, and its fine and due day are computed; the same
images meet a rule wait on PC and on LR1 where those blocks are not VALID, and a blank class. -/
theorem witness_RenewalChecksInOrder :
    let patron := patronImage 70211 6 20130 0 0 [⟨1, 460, 20000⟩]
    let item := itemImage 5300442 402990 2 19 70211 20100 1
    loanPresent item = true ∧ borrower item = 70211 ∧ itemTitle item ≠ 0 ∧ 20112 < cardExpiry patron ∧
    manualBlock patron = false ∧ (readClass rules (patronClassOf patron)).toOption = some (some ⟨1000, 30, 10⟩) ∧
    (readLoanRule rules 6 (itemClass item)).toOption = some (some ⟨1, 21, 3, 25, 500, 3⟩) ∧
    (fineOf rules (owningBranch item) ⟨1, 21, 3, 25, 500, 3⟩ 30 (dueDay item) 20112).toOption = some 140 ∧
    (newDueDay rules (owningBranch item) 21 (dueDay item) 20112 (cardExpiry patron)).toOption =
      some (some (20130, true)) ∧
    readClass State.reset.rs 6 = .error (.wait 12) ∧
    (readLoanRule rules 9 2) = .error (.wait 2) ∧ (readClass rules 5).toOption = some none ∧
    loanPresent (itemImage 5300442 402990 2 19 0 20100 1) = false :=
  ⟨by decide +kernel, by decide +kernel, by decide +kernel, by decide +kernel, by decide +kernel, by decide +kernel,
    by decide +kernel, by decide +kernel, by decide +kernel, rfl, rfl, by decide +kernel, by decide +kernel⟩

/-- Branch 0, whose calendar block is not VALID: the fine waits for it, and within the grace the due day does. Renewals
used at the maximum and next below it; as many holds as free copies and one more; a 12th fine and a fine of 0. -/
theorem witness_RenewalChecksInOrder_waits :
    fineOf rules 0 ⟨1, 21, 3, 25, 500, 3⟩ 30 20100 20112 = .error (.wait 4) ∧
    fineOf rules 0 ⟨1, 21, 3, 25, 500, 3⟩ 30 20109 20112 = .ok 0 ∧
    newDueDay rules 0 21 20109 20112 20140 = .error (.wait 4) ∧
    renewalsUsed (itemImage 5300442 402990 2 19 70211 20100 3) = 3 ∧
    renewalsUsed (itemImage 5300442 402990 2 19 70211 20100 2) < 3 ∧
    (holdList (titleImage 402990 0 [⟨5, 1, false, 20000, 20112, 0⟩])).countP (fun h =>
      decide (h.patron ≠ (70211 : Key).toNat ∧ h.ready = false ∧ (h.suspend = 0 ∨ h.suspend ≤ 20112))) = 1 ∧
    freeCopies (titleImage 402990 1 []) = 1 ∧ freeCopies (titleImage 402990 0 []) < 1 ∧
    (fineList (patronImage 70211 6 20130 0 0 (List.replicate 12 ⟨1, 1, 20000⟩))).length = 12 ∧
    balanceOf (fineList (patronImage 70211 6 20130 0 0 [⟨1, 860, 20000⟩])) + 140 = 1000 ∧
    newDueDay rules 19 21 20100 20112 20100 = .ok none ∧ newDueDay rules 19 21 20100 20112 20130 = .ok (some (20130, true)) :=
  ⟨rfl, rfl, rfl, by decide +kernel, by decide +kernel, by decide +kernel, by decide +kernel, by decide +kernel,
    by decide +kernel, by decide +kernel, rfl, rfl⟩

/-- Overdue by the grace of 3 and by one more; PC not VALID; the rule tables of 7.6 with their days of branch 19, and of
branch 0, whose calendar block is not VALID; intervals that end before the window from 20,000 and begin behind it; a
discount of 100. -/
theorem witness_FineComputation : 20103 - 20100 ≤ 3 ∧ 3 < 20104 - 20100 ∧ readBase State.reset.rs = .error (.wait 12) ∧
    readBase rules = .ok (some 20000) ∧
    (∀ j, j < 12 → dayClosed rules 19 (some 20000) (20100 + 1 + j) =
      .ok ((fun j => decide (j = 2 ∨ j = 3 ∨ j = 9 ∨ j = 10)) j)) ∧
    dayClosed rules 0 (some 20000) (20100 + 1 + 0) = .error (.wait 4) ∧
    dayClosed rules 0 (some 20000) (19995 + 1 + 3) = .ok false ∧
    dayClosed rules 0 (some 20000) (19995 + 1 + 4) = .error (.wait 4) ∧
    19999 < 20000 ∧ 20000 + 511 < 20511 + 1 ∧ 63 < 64 ∧ 100 ≤ 100 := by
  refine ⟨by decide, by decide, rfl, rfl, fun j h => ?_, rfl, rfl, rfl, by decide⟩
  interval_cases j <;> rfl

/-- The candidates 20,133, closed at branch 19 with an open day behind it, and 65,535; a candidate whose day cannot be read,
and one next outside the window on either side. -/
theorem witness_DueDayComputation : readBase rules = .ok (some 20000) ∧ 65535 ≤ 65535 ∧
    max 20100 (min 65535 (20112 + 21)) = 20133 ∧ dayClosed rules 19 (some 20000) (20133 + 0) = .ok true ∧
    dayClosed rules 19 (some 20000) (20133 + 1) = .ok false ∧
    max 65535 (min 65535 (65535 + 21)) + 0 = 65535 ∧ dayClosed rules 0 (some 20000) (20133 + 0) = .error (.wait 4) ∧
    (∀ j, j < 31 → ∃ y, dayClosed rules 64 (some 20000) (20133 + j) = .ok y) ∧
    max 19990 (min 65535 (19978 + 21)) < 20000 ∧ 20000 + 511 < max 20000 (min 65535 (20491 + 21)) :=
  ⟨rfl, by decide, by decide, rfl, rfl, by decide, rfl, fun j _ => ⟨false, by simp [dayClosed]⟩, by decide, by decide⟩

/-- The days at both ends of the window from 20,000 and next outside it; a written and a blank entry of CAL2; CAL0 not
VALID. -/
theorem witness_CalendarDays : (19999 : Nat) < 20000 ∧ 20000 + 511 < 20512 ∧ 20000 ≤ 20511 ∧ 20511 ≤ 20000 + 511 ∧
    (6 : BlockId).val = 4 + 19 / 8 ∧ (rules.block 6).content = .valid ∧ (rules.block 4).content ≠ .valid ∧
    ((rules.block 6).entries.getD (19 % 8 * 8 + (20133 - 20000) / 64) none) = some (.calendar (1#64 <<< 5)) ∧
    (rules.block 6).entries.getD (19 % 8 * 8 + (20511 - 20000) / 64) none = none ∧
    (rules.block 12).content = .valid ∧ (rules.block 12).entries.getD 16 none = some (.windowBase 20000) ∧
    (rules.block 12).entries.getD 6 none = some (.patronClass ⟨1000, 30, 10⟩) ∧
    (rules.block 12).entries.getD 15 none = none ∧ (State.reset.rs.block 12).content ≠ .valid ∧
    (rules.block 1).content = .valid ∧ (1 : BlockId).val = 6 / 4 ∧
    (rules.block 1).entries.getD (6 % 4 * 16 + 2) none = some (.loanRule ⟨1, 21, 3, 25, 500, 3⟩) ∧
    (rules.block 1).entries.getD (7 % 4 * 16 + 15) none = none ∧ (15 : Nat) < 16 := by decide +kernel

theorem witness_PaymentsTakeOldestFirst : (∀ f ∈ [(⟨1, 120, 2⟩ : Fine), ⟨1, 300, 2⟩], 0 < f.amount) ∧
    420 ≤ balanceOf [⟨1, 120, 2⟩, ⟨1, 300, 2⟩] ∧ (0 : Nat) < 1 ∧ 99999 < 100000 ∧
    balanceOf (fineList (patronImage 1 0 0 0 0 [])) = 0 ∧ balanceOf (fineList (patronImage 1 0 0 0 0 [⟨1, 1, 1⟩])) ≠ 0 := by
  decide +kernel

theorem witness_AccountAndHoldDecisions : readClass State.reset.rs 6 = .error (.wait 12) ∧
    patronClassOf (patronImage 1 6 20130 0 0 []) = 6 ∧ patronClassOf (patronImage 1 16 20130 0 0 []) = 16 ∧
    readClass rules 16 = .ok none ∧ readClass rules 6 = .ok (some ⟨1000, 30, 10⟩) ∧
    63 < (64 : Octet).toNat ∧ (63 : Octet).toNat ≤ 63 ∧ cardExpiry (patronImage 1 6 20130 0 0 []) = 20130 ∧
    manualBlock (patronImage 1 6 20130 1 0 []) = true ∧ manualBlock (patronImage 1 6 20130 0 0 []) = false :=
  ⟨rfl, by decide +kernel, by decide +kernel, rfl, rfl, by decide, by decide, by decide +kernel, by decide +kernel,
    by decide +kernel⟩

/-- No hold of the patron; a WAITING one with and without a suspend-until day; a READY one. -/
theorem witness_CancelSuspendResumeDecisions :
    (∀ h ∈ holdList (titleImage 404210 1 []), h.patron ≠ (71777 : Key).toNat) ∧
    (holdList (titleImage 404210 1 [⟨71777, 7, false, 20500, 20680, 0⟩])).find?
      (fun h => decide (h.patron = (71777 : Key).toNat)) = some ⟨71777, 7, false, 20500, 20680, 0⟩ ∧
    (holdList (titleImage 404210 1 [⟨71777, 7, false, 20500, 0, 0⟩])).find?
      (fun h => decide (h.patron = (71777 : Key).toNat)) = some ⟨71777, 7, false, 20500, 0, 0⟩ ∧
    (holdList (titleImage 404210 1 [⟨71777, 7, true, 20500, 0, 5⟩])).find?
      (fun h => decide (h.patron = (71777 : Key).toNat)) = some ⟨71777, 7, true, 20500, 0, 5⟩ ∧
    20500 ≤ 20500 ∧ 20500 < 20501 := by decide +kernel

theorem witness_ListsInImagesRoundTrip : (patronImage 1 0 0 0 0 []).length = 128 ∧
    (List.replicate 12 (⟨1, 65535, 65535⟩ : Fine)).length ≤ 12 ∧
    (∀ f ∈ List.replicate 12 (⟨1, 65535, 65535⟩ : Fine), f.item < 2 ^ 32 ∧ 1 ≤ f.amount ∧ f.amount ≤ 65535 ∧
      f.day ≤ 65535) ∧ (titleImage 1 0 []).length = 256 ∧ (itemImage 1 2 3 4 5 6 7).length = 32 ∧
    (let holds : List Hold := (List.range 24).map fun n => ⟨n + 1, 63, n % 2 = 0, 65535, 65535, if n % 2 = 0 then 255 else 0⟩;
      holds.length ≤ 24 ∧ (holds.map Hold.patron).Nodup ∧
        ∀ h ∈ holds, 1 ≤ h.patron ∧ h.patron < 2 ^ 32 ∧ h.branch ≤ 63 ∧ h.placed ≤ 65535 ∧ h.suspend ≤ 65535 ∧
          h.offset ≤ 255 ∧ (h.ready = false → h.offset = 0)) := by decide +kernel

/-- Block octets 12 and 13; entry octets 16 and 17 of PC and 63 and 64 of LR0; every content state; an entry written and
blank; each error flag; a store that is BUSY. -/
theorem witness_TableCommandsStartOrRefuse : Manageable State.reset ∧ (12 : Octet).toNat = (12 : BlockId).val ∧
    13 ≤ (13 : Octet).toNat ∧ (List.replicate 476 (0 : Octet)).length ≤ 476 ∧
    ¬ 17 ≤ (16 : Octet).toNat ∧ 17 ≤ (17 : Octet).toNat ∧ ¬ 64 ≤ (63 : Octet).toNat ∧ 64 ≤ (64 : Octet).toNat ∧
    State.reset.rs.operation = none ∧ State.reset.rs.writeError = false ∧ State.reset.rs.sequenceError = false ∧
    (State.reset.rs.block 12).content = .blank ∧ (rules.block 12).content = .valid ∧
    (rules.block 12).entries.getD 6 none ≠ none ∧ (rules.block 12).entries.getD 5 none = none ∧
    (running ⟨.clear, 12, 9, 0x0B⟩).rs.operation ≠ none ∧
    ((running ⟨.clear, 12, 9, 0x0B⟩).rs.block 12).content = .incomplete ∧
    Manageable (running ⟨.clear, 12, 9, 0x0B⟩) := by
  unfold Manageable Listening; decide +kernel

theorem witness_TableAbortReadStatus : Manageable State.reset ∧ State.reset.rs.operation = none ∧
    Manageable (running ⟨.clear, 12, 9, 0x0B⟩) ∧
    (running ⟨.clear, 12, 9, 0x0B⟩).rs.operation = some ⟨.clear, 12, 9, 0x0B⟩ ∧
    (rules.block 12).entries.getD 6 none = some (.patronClass ⟨1000, 30, 10⟩) := by
  unfold Manageable Listening; decide +kernel

/-- Each operation running, and a context waiting for the block that closes and one waiting for another. -/
theorem witness_StoreOperationsComplete :
    (running ⟨.clear, 12, 9, 0x0B⟩).rs.operation = some ⟨.clear, 12, 9, 0x0B⟩ ∧
    (running ⟨.write 16 [0, 1], 12, 9, 0x0C⟩).rs.operation = some ⟨.write 16 [0, 1], 12, 9, 0x0C⟩ ∧
    (running ⟨.close, 12, 9, 0x0D⟩).rs.operation = some ⟨.close, 12, 9, 0x0D⟩ ∧
    (((busy { txn .decide (.account 70004) with ruleWait := some 12 }).txn 5).bind Txn.ruleWait) = some 12 ∧
    (∀ o, State.reset.rs.operation = some o → o.kind ≠ .clear) := by
  refine ⟨rfl, rfl, rfl, by decide +kernel, ?_⟩
  intro o h; cases h

theorem witness_WritesAreClamped : (3 : BlockId).val < 4 ∧ 4 ≤ (4 : BlockId).val ∧ (11 : BlockId).val < 12 ∧
    (List.replicate 8 (0 : Octet)).length = 8 ∧ (List.replicate 6 (0 : Octet)).length = 6 ∧
    (List.replicate 2 (0 : Octet)).length = 2 := by decide +kernel

/-- The day before, on and after the county day; override octets 2 and 3. -/
theorem witness_SetDayAndOverride :
    let s : State := { State.reset with um := { State.reset.um with day := 20112 } }
    Manageable s ∧ s.um.day.toNat ≤ (20112 : Day).toNat ∧ (20111 : Day).toNat < s.um.day.toNat ∧ (20111 : Day) ≠ 0 ∧
    3 ≤ (3 : Octet).toNat := by
  unfold Manageable Listening; decide +kernel

/-- An idle and a busy unit in each service state. -/
theorem witness_QuiesceResumeFlush : Idle State.reset ∧ ¬ Idle (busy (txn .gather (.account 70004))) ∧
    Manageable (busy (txn .gather (.account 70004))) ∧ State.reset.um.service = .normal ∧
    (let s : State := { State.reset with um := { State.reset.um with service := .quiescing, pendingQuiesce := some 3 } };
      Manageable s ∧ s.um.service = .quiescing ∧ s.um.pendingQuiesce = some 3) ∧
    (let s : State := { State.reset with um := { State.reset.um with service := .quiesced } };
      Manageable s ∧ s.um.service = .quiesced) ∧
    (let x := txn .gather (.account 70004);
      let s := (busy x).mapUm fun u => { u with service := .quiescing, pendingQuiesce := some 3 };
      let t := State.reset.mapUm fun u => { u with service := .quiescing, pendingQuiesce := some 3 };
      Idle t ∧ t.um.service = .quiescing ∧ s.powered = true ∧ s.um.pendingQuiesce = some 3 ∧ s.txn 5 = some x ∧
        x.state ≠ .commit ∧ (∀ d, d ≠ 5 → s.txn d = none) ∧ (∀ i, (s.slot i).fill = none) ∧ s.fu.waiting = []) := by
  unfold Manageable Idle Listening; decide +kernel

theorem witness_StatusAndCountersReports : Manageable State.reset ∧ (0 : Octet) = 0 ∧ (1 : Octet) ≠ 0 :=
  ⟨reset_manageable, rfl, by decide +kernel⟩

/-- A command code above the table's; a MGMT frame that finds 16 replies held. -/
theorem witness_UnknownAndUntakenCommands : Manageable State.reset ∧
    (Instr.unknownCommand 1 0x11 []).wellFormed = true ∧ Listening (owing 16) ∧ 16 ≤ repliesOwed (owing 16) ∧
    (Instr.quiesce 1).wellFormed = true ∧ encodeFrame (.quiesce 1) = some (0x26, 0, [1, 0x05]) := by
  unfold Manageable Listening; decide +kernel

theorem witness_RepliesLeaveInOrder : (owing 2).um.replyOnLine = true ∧ State.reset.um.replyOnLine = false ∧
    State.reset.um.replies = [] := ⟨rfl, rfl, rfl⟩

/-- The state after reset, with a TRANSMIT_FRAME_END waiting, meets the invariants of the statements about steps, and
takes the step. -/
def ready : State := { State.reset with pending := [.transmitFrameEnd] }

theorem witness_step : ∃ t, step ready = .next t := ⟨_, rfl⟩

theorem witness_LineSharesKept : TransmitterShape ready ∧ LineShares ready :=
  ⟨rfl, by decide +kernel, by decide +kernel, by decide +kernel, by decide +kernel, by decide +kernel,
    fun c f h => by revert c f; decide +kernel, fun _ => .inr ⟨.line, rfl⟩⟩

theorem witness_LaneBoundsKept : ReplyQueues ready ∧ LaneShapes ready ∧ InFlight ready := by
  refine ⟨fun i => ?_, fun i => ?_, fun i d => ?_⟩
  · fin_cases i <;> exact ⟨by decide +kernel, by decide +kernel⟩
  · fin_cases i <;> exact ⟨fun _ => rfl, fun h => (by cases h), fun _ h => (by cases h), rfl⟩
  · rw [show flying ready i d = [] by
      rw [show flying ready i d = (allContexts.filterMap ready.txn).filter
        fun x => decide (x.lane = i ∧ x.drop = d) from rfl,
        show allContexts.filterMap ready.txn = [] by decide +kernel]; rfl]
    simp

/-- The two waiters of a failing fill, each once on its wait list. -/
theorem witness_WaitOnce : WaitOnce ready ∧ ([6, 5] : List CtxId).Nodup := by
  refine ⟨fun k => ⟨by cases k <;> decide +kernel, fun n => ?_⟩, by decide⟩
  rw [show ready.entry k n = .empty from reset_entry k n]; trivial

theorem witness_TableShapesKept : PoolShape ready ∧ StoreShape ready ∧ KeysOnce ready := by
  have i : ∀ i, (ready.slot i).fill = none := by decide +kernel
  refine ⟨fun k => ?_, ⟨fun o h => (by cases h), by decide +kernel⟩, fun k key n m h => ?_, fun j f h => ?_,
    fun w h => ?_, by decide +kernel, fun h => ?_⟩
  rotate_left
  · unfold HoldsKey at h; rw [show ready.entry k n = .empty from reset_entry k n] at h; exact h.elim
  · rw [i] at h; cases h
  · cases h
  · cases h
  cases k <;> simp [ready, State.pool, Cache.pool, State.reset, State.afterReset, Cache.reset, Pool.reset]

theorem witness_RepliesBoundedKept : RepliesBounded ready ∧ RepliesBounded (owing 16) := by
  unfold RepliesBounded; decide

theorem witness_UnitNumberAndDayKept : ready.bli.unitNumber ≠ 0 ∧ ready.bli.assembly = [] ∧
    aligned ready.bli = true ∧ ∀ c ∈ ready.pending.head?, c.wellFormed = true ∧ (∀ octets, c ≠ .linkFrameError octets) ∧
      (∀ straps, c ≠ .resetLine straps) ∧ ∀ seq straps, c ≠ .resetUnit seq straps := by
  refine ⟨by decide +kernel, rfl, by decide +kernel, fun c h => ?_⟩
  cases h; exact ⟨rfl, fun _ => Instr.noConfusion, fun _ => Instr.noConfusion, fun _ _ => Instr.noConfusion⟩

end Sys2Proof.Tests
end

namespace Sys2Proof.KioskLanes

open Sys2Proof Sys2Proof.Machine Sys2Proof.Safety

/-! ## What the events of transactions can do to lanes and to the hands a context is in -/

/-- Whose transaction it is: lane, drop and kiosk tag (R43). -/
def hand (x : Txn) : LaneId × DropId × Octet := (x.lane, x.drop, x.kioskTag)

/-- One reply has been offered to the lane (R20). -/
def Offered (l l' : Lane) : Prop := ∃ d body, l' = l.offer d body

/-- Every busy context of the later state was busy before, in the same hands: none has been accepted. -/
def SameHands (s t : State) : Prop := ∀ c x, t.txn c = some x → ∃ y, s.txn c = some y ∧ hand x = hand y

/-- What the events of transactions do to lanes and contexts: replies are offered, and no context begins or changes
hands. -/
structure Follows (s t : State) : Prop where
  lanes : ∀ i, Relation.ReflTransGen Offered (s.lane i) (t.lane i)
  hands : SameHands s t

theorem SameHands.of_same {s t : State} (contexts : t.dct.contexts = s.dct.contexts) : SameHands s t := by
  intro c x h
  exact ⟨x, by simpa [State.txn, State.ctx, contexts] using h, rfl⟩

theorem Follows.refl (s : State) : Follows s s := ⟨fun _ => .refl, fun _ x h => ⟨x, h, rfl⟩⟩

theorem Follows.trans {s t u : State} (h : Follows s t) (g : Follows t u) : Follows s u := by
  refine ⟨fun i => (h.lanes i).trans (g.lanes i), fun c x hx => ?_⟩
  obtain ⟨y, hy, e⟩ := g.hands c x hx
  obtain ⟨z, hz, e'⟩ := h.hands c y hy
  exact ⟨z, hz, e.trans e'⟩

/-- An update that leaves the lanes and the contexts alone. -/
theorem Follows.of_same {s t : State} (lanes : t.lanes = s.lanes) (contexts : t.dct.contexts = s.dct.contexts) :
    Follows s t :=
  ⟨fun i => by rw [State.lane, State.lane, lanes], SameHands.of_same contexts⟩

/-- An update that leaves the lanes and the contexts alone, before an operation. -/
theorem Follows.after {s t u : State} (g : Follows t u) (lanes : t.lanes = s.lanes)
    (contexts : t.dct.contexts = s.dct.contexts) : Follows s u := (Follows.of_same lanes contexts).trans g

/-- A transaction counter's advance after an operation. -/
theorem Follows.countTxn {s t : State} (g : Follows s t) (c : TxnCounter) : Follows s (t.countTxn c) :=
  ⟨g.lanes, g.hands⟩

theorem hand_of_card {x y : Txn} (h : card x = card y) : hand x = hand y := by
  simp only [card, Card.mk.injEq] at h
  obtain ⟨hl, hd, ht, -⟩ := h
  simp [hand, hl, hd, ht]

theorem Follows.of_hushed {s t : State} (h : Hushed s t) : Follows s t := by
  refine ⟨fun i => by rw [State.lane, State.lane, h.lanes], fun c x hx => ?_⟩
  have e : (s.txn c).map card = some (card x) := by rw [← cardOf, ← h.cards c, cardOf, hx]; rfl
  obtain ⟨y, hy, e⟩ := Option.map_eq_some_iff.mp e
  exact ⟨y, hy, hand_of_card e.symm⟩

/-- A busy context's transaction is replaced by one in the same hands, or by none. -/
theorem follows_setTxn (s : State) (c : CtxId) (x : Txn) (new : Option Txn) (h : s.txn c = some x)
    (e : ∀ y, new = some y → hand y = hand x) : Follows s (s.setTxn c new) := by
  refine ⟨fun _ => .refl, fun d y hy => ?_⟩
  by_cases hd : c = d
  · subst hd
    rw [State.txn_setTxn] at hy
    exact ⟨x, h, e y hy⟩
  · rw [State.txn_setTxn_ne s _ hd] at hy
    exact ⟨y, hy, rfl⟩

theorem follows_mapTxn (s : State) (c : CtxId) (f : Txn → Txn) (e : ∀ x, hand (f x) = hand x) :
    Follows s (s.mapTxn c f) := by
  refine ⟨fun _ => .refl, fun d y hy => ?_⟩
  by_cases hd : c = d
  · subst hd
    rw [State.txn_mapTxn] at hy
    obtain ⟨x, hx, rfl⟩ := Option.map_eq_some_iff.mp hy
    exact ⟨x, hx, e x⟩
  · rw [State.txn_mapTxn_ne s _ hd] at hy
    exact ⟨y, hy, rfl⟩

theorem follows_foldl {α : Type} (f : State → α → State) (h : ∀ s a, Follows s (f s a)) (l : List α) (s : State) :
    Follows s (l.foldl f s) := by
  induction l generalizing s with
  | nil => exact .refl s
  | cons a l ih => exact (h s a).trans (ih _)

theorem follows_offerReply (i : LaneId) (d : DropId) (body : List Octet) (s : State) :
    Follows s (offerReply i d body s) := by
  refine ⟨fun j => ?_, SameHands.of_same rfl⟩
  by_cases h : i = j
  · subst h
    rw [offerReply, State.lane_mapLane]
    exact .single ⟨d, body, rfl⟩
  · rw [offerReply, State.lane_mapLane_ne s _ h]

theorem follows_offerRelay (i : LaneId) (d : DropId) (body : List Octet) (s : State) :
    Follows s (offerRelay i d body s) := by
  unfold offerRelay; split <;> exact .of_same rfl rfl

/-! ## The ends of contexts -/

theorem follows_freeCtx (c : CtxId) (s : State) : Follows s (freeCtx c s).1 := by
  unfold freeCtx; split
  · exact .refl s
  · next x h =>
    have left : Follows s ((leaveLists c s).setTxn c none) :=
      (follows_setTxn (leaveLists c s) c x none h (by simp)).after rfl rfl
    exact left.trans (.of_hushed (hushed_releaseAll c x _))

theorem follows_endCtx (c : CtxId) (code : ResultCode) (fields : List Octet) (s : State) :
    Follows s (endCtx c code fields s).1 := by
  unfold endCtx; split
  · exact .refl s
  · refine Follows.trans ?_ (follows_freeCtx c _)
    split
    · exact .of_same rfl rfl
    · exact (follows_offerReply _ _ _ s).countTxn _

@[simp] theorem hand_regathered (x : Txn) : hand x.regathered = hand x := rfl

theorem follows_regather (c : CtxId) (s : State) : Follows s (regather c s).1 := by
  unfold regather
  split
  · exact .refl s
  next x h =>
  split
  · exact follows_freeCtx c s
  split
  · exact follows_endCtx c _ _ s
  have left : Follows s ((leaveLists c s).setTxn c (some x.regathered)) :=
    (follows_setTxn (leaveLists c s) c x (some x.regathered) h (by simp)).after rfl rfl
  have again := left.trans (.of_hushed (hushed_releaseAll c x _))
  dsimp only; split
  · exact again.countTxn _
  · exact (again.countTxn _).trans (follows_endCtx c _ _ _)

theorem follows_abortCtx (c : CtxId) (s : State) : Follows s (abortCtx c s).1 := by
  unfold abortCtx
  split
  · exact .refl s
  next x h =>
  split
  · exact follows_freeCtx c s
  · exact follows_freeCtx c s
  · exact follows_setTxn s c x _ h (by rintro y ⟨⟩; rfl)

theorem follows_endEach (code : ResultCode) (cs : List CtxId) (s : State) : Follows s (endEach code cs s).1 := by
  induction cs generalizing s with
  | nil => exact .refl s
  | cons c cs ih => exact (follows_endCtx c code [] s).trans (ih _)

theorem follows_abortWhere (test : Txn → Bool) (cs : List CtxId) (s : State) :
    Follows s (abortWhere test cs s).1 := by
  induction cs generalizing s with
  | nil => exact .refl s
  | cons c cs ih =>
    unfold abortWhere; split
    · exact (follows_abortCtx c s).trans (ih _)
    · exact ih s

/-! ## The consequences of an event -/

theorem follows_doTask (t : Task) (s : State) : Follows s (doTask t s).1 := by
  cases t with
  | resume c => exact .of_hushed (hushed_resumeCtx c s).1
  | retry k => exact .refl s
  | regather c => exact follows_regather c s

theorem follows_runTasks (fuel : Nat) (ts : List Task) (s : State) : Follows s (runTasks fuel ts s) := by
  induction fuel generalizing ts s with
  | zero => exact .refl s
  | succ n ih =>
    cases ts with
    | nil => exact .refl s
    | cons t ts => exact (follows_doTask t s).trans (ih _ _)

theorem follows_settle {s : State} (r : State × List Task) (h : Follows s r.1) : Follows s (settle r) :=
  (h.trans (follows_runTasks _ _ _)).trans (.of_hushed (hushed_settleQuiesce _))

/-! ## Fills, notices, commits, decisions -/

theorem follows_finishSlot (i : SlotId) {s t : State} (h : Follows s t) : Follows s (finishSlot i t) :=
  h.trans (.of_hushed (hushed_finishSlot i t))

theorem follows_offerRoom (k : RecordKind) {s t : State} (h : Follows s t) : Follows s (offerRoom k t) :=
  h.trans (follows_runTasks _ _ t)

theorem follows_completeFill (i : SlotId) (f : Fill) (v : Version) (keep : Bool) (s : State) :
    Follows s (completeFill i f v keep s).1 := by
  have found : ∀ n b t w, Follows t (t.mapTxn w (·.found f.kind n b)) := fun n b t w =>
    follows_mapTxn t w _ fun x => hand_of_card (card_found x f.kind n b)
  unfold completeFill; dsimp only; split
  · exact follows_finishSlot i (follows_offerRoom _ (.of_same rfl rfl))
  · exact follows_finishSlot i ((follows_foldl _ (found f.entry false) _ _).after rfl rfl)
  · exact follows_finishSlot i (follows_offerRoom _ (.of_same rfl rfl))
  · exact follows_finishSlot i ((found f.entry true _ _).after rfl rfl)

theorem follows_failFill (i : SlotId) (f : Fill) (code : ResultCode) (s : State) :
    Follows s (failFill i f code s).1 :=
  follows_finishSlot i (follows_offerRoom _ ((follows_endEach code _ s).trans (.of_same rfl rfl)))

theorem follows_noteInEntry (k : RecordKind) (key : Key) (v : Version) (n : Nat) (s : State) :
    Follows s (noteInEntry k key v n s).1 := by
  unfold noteInEntry; repeat' split
  all_goals exact .of_same rfl rfl

theorem follows_noteInEntries (k : RecordKind) (key : Key) (v : Version) (ns : List Nat) (s : State) :
    Follows s (noteInEntries k key v ns s).1 := by
  induction ns generalizing s with
  | nil => exact .refl s
  | cons n ns ih => exact (follows_noteInEntry k key v n s).trans (ih _)

theorem follows_fetchDue (i : SlotId) (a b : Nat) {s t : State} (h : Follows s t) : Follows s (fetchDue i a b t) :=
  h.trans (.of_hushed (hushed_fetchDue i a b t))

theorem follows_restartFill (i : SlotId) (f : Fill) (s : State) : Follows s (restartFill i f s) :=
  follows_fetchDue _ _ _ (.of_same rfl rfl)

theorem follows_takeSegment (tag : Tag) (kind : Octet) (key : Key) (v : Version) (index flags : Octet)
    (data : List Octet) (s : State) : Follows s (takeSegment tag kind key v index flags data s) := by
  unfold takeSegment
  split
  · exact .of_same rfl rfl
  split
  · exact .of_same rfl rfl
  split
  · exact follows_restartFill _ _ s
  split
  · dsimp only; split
    · exact follows_fetchDue _ _ _ (.of_same rfl rfl)
    · exact .of_same rfl rfl
  dsimp only; split
  · exact follows_settle _ ((follows_completeFill _ _ _ _ _).after rfl rfl)
  split
  · exact follows_fetchDue _ _ _ (.of_same rfl rfl)
  · exact .of_same rfl rfl

theorem follows_takeAbsent (tag : Tag) (s : State) : Follows s (takeAbsent tag s) := by
  unfold takeAbsent
  split
  · split
    · exact follows_settle _ (follows_failFill _ _ _ s)
    · exact .of_same rfl rfl
  · exact .of_same rfl rfl

theorem follows_takeDefer (tag : Tag) (code : Octet) (s : State) : Follows s (takeDefer tag code s) := by
  unfold takeDefer
  split
  · split
    · exact .of_same rfl rfl
    split
    · exact follows_settle _ (follows_failFill _ _ _ s)
    · exact .of_same rfl rfl
  · exact .of_same rfl rfl

theorem follows_takeInvalidate (kind : Octet) (key : Key) (v : Version) (s : State) :
    Follows s (takeInvalidate kind key v s) := by
  unfold takeInvalidate
  split
  · exact .refl s
  split
  · exact .refl s
  · exact follows_settle _ ((follows_noteInEntries _ _ _ _ _).after rfl rfl)

theorem follows_takeOutcome (c : CtxId) (s : State) : Follows s (takeOutcome c s) :=
  (follows_mapTxn (s.setCommitRec c _) c (fun x => { x with outstanding := none }) fun _ => rfl).after rfl rfl

theorem follows_mapHeldCopy (c : CtxId) (k : RecordKind) (n : Nat) (f : Copy → Copy) (s : State) :
    Follows s (mapHeldCopy c k n f s) := by
  unfold mapHeldCopy; repeat' split
  all_goals exact .of_same rfl rfl

theorem follows_applyEntry (c : CtxId) (e : UpdateEntry) (v : Version) (s : State) :
    Follows s (applyEntry c e v s) := by
  unfold applyEntry; repeat' split
  · exact .refl s
  · exact (follows_mapHeldCopy c _ _ _ s).trans (.of_same rfl rfl)
  · exact .refl s

theorem follows_applyEntries (c : CtxId) (es : List (UpdateEntry × Version)) (s : State) :
    Follows s (applyEntries c es s) := by
  induction es generalizing s with
  | nil => exact .refl s
  | cons e es ih => exact (follows_applyEntry c e.1 e.2 s).trans (ih _)

theorem follows_staleEntries (c : CtxId) (es : List (UpdateEntry × Version)) (s : State) :
    Follows s (staleEntries c es s) := by
  induction es generalizing s with
  | nil => exact .refl s
  | cons e es ih => exact (follows_mapHeldCopy c _ _ _ s).trans (ih _)

theorem follows_timeoutEntries (c : CtxId) (es : List UpdateEntry) (s : State) :
    Follows s (timeoutEntries c es s) := by
  induction es generalizing s with
  | nil => exact .refl s
  | cons e es ih => exact (follows_mapHeldCopy c _ _ _ s).trans (ih _)

theorem follows_takeResult (tag : Tag) (attempt outcome : Octet) (vs : List Version) (s : State) :
    Follows s (takeResult tag attempt outcome vs s) := by
  unfold takeResult
  split
  · exact .of_same rfl rfl
  next c o r _ =>
  have taken := follows_takeOutcome c s
  dsimp only; split
  · exact follows_settle _ ((taken.trans (follows_applyEntries c _ _)).trans (follows_endCtx c _ _ _))
  · exact follows_settle _ ((taken.trans (follows_staleEntries c _ _)).trans (follows_regather c _))
  · exact follows_settle _ (taken.trans (follows_endCtx c _ _ _))

theorem follows_endDelay (i : SlotId) (s : State) : Follows s (endDelay i s) := by
  unfold endDelay; repeat' split
  · exact follows_restartFill _ _ s
  · exact .refl s
  · exact .refl s

theorem follows_fetchTimerOut (i : SlotId) (s : State) : Follows s (fetchTimerOut i s) := by
  unfold fetchTimerOut; repeat' split
  · exact follows_settle _ (follows_failFill _ _ _ s)
  · exact .refl s
  · exact .refl s

theorem follows_commitTimerOut (c : CtxId) (s : State) : Follows s (commitTimerOut c s) := by
  unfold commitTimerOut; repeat' split
  · exact follows_settle _ (((follows_takeOutcome c s).trans (follows_timeoutEntries c _ _)).trans
      (follows_endCtx c _ _ _))
  all_goals exact .refl s

theorem follows_deadlineFalls (c : CtxId) (s : State) : Follows s (deadlineFalls c s) := by
  unfold deadlineFalls
  split
  · exact .refl s
  next x h =>
  split
  · exact follows_settle _ (follows_endCtx c _ _ s)
  · exact follows_settle _ (follows_endCtx c _ _ s)
  · exact follows_setTxn s c x _ h (by rintro y ⟨⟩; rfl)

theorem follows_frameSent (f : Frame) (s : State) : Follows s (frameSent f s) := by
  unfold frameSent
  split
  · dsimp only; repeat' split
    · exact follows_fetchDue _ _ _ (.of_same rfl rfl)
    · exact .of_same rfl rfl
    · exact .of_same rfl rfl
  · dsimp only; split <;> exact .of_same rfl rfl
  · exact (Follows.of_hushed (hushed_pumpReplies _)).after rfl rfl
  · exact .refl s
  · exact .refl s

theorem follows_endFrame (s : State) : Follows s (endFrame s) := by
  unfold endFrame; dsimp only; split
  · exact .refl s
  · exact (follows_frameSent _ _).after rfl rfl

theorem follows_readHeld (t : Txn) (s : State) : Follows s (readHeld t s) := by
  unfold readHeld; split
  · exact .refl s
  · exact follows_foldl _ (fun s k => by unfold touchRead; split <;> exact .of_same rfl rfl) _ s

theorem follows_offerUpdate (c : CtxId) (f : Frame) (s : State) : Follows s (offerUpdate c f s) := by
  unfold offerUpdate; dsimp only; split <;> exact .of_same rfl rfl

theorem follows_queueUpdate (c : CtxId) (x : NewImages) (code : ResultCode) (fields : List Octet) (s : State) :
    Follows s (queueUpdate c x code fields s) := by
  unfold queueUpdate; split
  · exact .refl s
  · next t h => exact (follows_setTxn s c t _ h (by rintro y ⟨⟩; rfl)).trans (follows_offerUpdate c _ _)

theorem follows_applyDecision (c : CtxId) (x : Txn) (d : Decision) (s : State) (h : s.txn c = some x) :
    Follows s (applyDecision c x d s) := by
  have read := follows_readHeld x s
  unfold applyDecision; dsimp only; split
  · exact follows_settle _ (read.trans (follows_endCtx c _ _ _))
  · exact follows_settle _ (read.trans (follows_endCtx c _ _ _))
  · exact read.trans (follows_queueUpdate c _ _ _ _)
  · next b _ =>
    have held : (readHeld x s).txn c = some x := by
      have same : (readHeld x s).dct = s.dct := by
        unfold readHeld; split
        · rfl
        · simp only [RecordKind.order, List.foldl_cons, List.foldl_nil, touchRead]
          repeat' split
          all_goals rfl
      rw [State.txn, State.ctx, same]; exact h
    exact read.trans ((follows_setTxn _ c x (some { x with ruleWait := some b }) held
      (by rintro y ⟨⟩; rfl)).trans (.of_same rfl rfl))

theorem follows_takeDecision (f : CtxId → Txn → State → Option Decision) (s : State) :
    Follows s (takeDecision f s) := by
  unfold takeDecision
  split
  · exact .refl s
  split
  · exact .refl s
  split
  · exact .refl s
  · next c rest _ _ x h _ _ _ =>
    exact (follows_applyDecision c x _ { s with au := { s.au with list := rest } } h).after rfl rfl

theorem follows_blockAvailable (b : BlockId) (s : State) : Follows s (blockAvailable b s) := by
  unfold blockAvailable
  exact (follows_foldl _ (fun t c => follows_mapTxn t c (fun x => { x with ruleWait := none }) fun _ => rfl) _ s).trans
    (.of_same rfl rfl)

/-! ## Unit Management -/

theorem follows_answer (q c : Octet) (r : ResultCode) (fs : List Octet) {s t : State} (h : Follows s t) :
    Follows s (answer q c r fs t) := h.trans (.of_hushed (hushed_answer q c r fs t))

theorem follows_tableClear (q b : Octet) (s : State) : Follows s (takeTableClear q b s) := by
  unfold takeTableClear; repeat' split
  · exact follows_answer _ _ _ _ (.refl s)
  · exact follows_answer _ _ _ _ (.refl s)
  · exact .of_same rfl rfl

theorem follows_tableWrite (q b e : Octet) (vs : List Octet) (s : State) :
    Follows s (takeTableWrite q b e vs s) := by
  unfold takeTableWrite
  split
  · exact follows_answer _ _ _ _ (.refl s)
  dsimp only
  split_ifs
  · exact follows_answer _ _ _ _ (.refl s)
  · exact follows_answer _ _ _ _ (.refl s)
  · exact follows_answer _ _ _ _ (.refl s)
  · exact follows_answer _ _ _ _ (.of_same rfl rfl)
  · exact follows_answer _ _ _ _ (.of_same rfl rfl)
  · exact follows_answer _ _ _ _ (.of_same rfl rfl)
  · exact .of_same rfl rfl

theorem follows_tableClose (q b : Octet) (s : State) : Follows s (takeTableClose q b s) := by
  unfold takeTableClose
  split
  · exact follows_answer _ _ _ _ (.refl s)
  dsimp only
  split_ifs
  · exact follows_answer _ _ _ _ (.refl s)
  · exact follows_answer _ _ _ _ (.refl s)
  · exact follows_answer _ _ _ _ (.of_same rfl rfl)
  · exact .of_same rfl rfl

theorem follows_tableAbort (q : Octet) (s : State) : Follows s (takeTableAbort q s) := by
  unfold takeTableAbort; split
  · exact follows_answer _ _ _ _ (.refl s)
  · exact follows_answer _ _ _ _ (follows_answer _ _ _ _ (.of_same rfl rfl))

theorem follows_tableStatusClear (q : Octet) (s : State) : Follows s (takeTableStatusClear q s) := by
  unfold takeTableStatusClear; split
  · exact follows_answer _ _ _ _ (.refl s)
  · exact follows_answer _ _ _ _ (.of_same rfl rfl)

theorem follows_clearCompletes (s : State) : Follows s (clearCompletes s) := by
  unfold clearCompletes; split
  · exact follows_answer _ _ _ _ (.of_same rfl rfl)
  · exact .refl s

theorem follows_writeCompletes (s : State) : Follows s (writeCompletes s) := by
  unfold writeCompletes; split
  · exact follows_answer _ _ _ _ (.of_same rfl rfl)
  · exact .refl s

theorem follows_closeCompletes (s : State) : Follows s (closeCompletes s) := by
  unfold closeCompletes; split
  · refine Follows.trans ?_ (follows_blockAvailable _ _)
    exact follows_answer _ _ _ _ (.of_same rfl rfl)
  · exact .refl s

theorem follows_setDay (q : Octet) (d : Day) (s : State) : Follows s (manageSetDay q d s) := by
  unfold manageSetDay; split_ifs
  · exact follows_answer _ _ _ _ (.refl s)
  · exact follows_answer _ _ _ _ (.refl s)
  · exact follows_answer _ _ _ _ (.of_same rfl rfl)

theorem follows_setOverride (q v : Octet) (s : State) : Follows s (manageSetOverride q v s) := by
  unfold manageSetOverride; split
  · exact follows_answer _ _ _ _ (.of_same rfl rfl)
  · exact follows_answer _ _ _ _ (.refl s)

theorem follows_quiesce (q : Octet) (s : State) : Follows s (manageQuiesce q s) := by
  unfold manageQuiesce; repeat' split
  · exact follows_answer _ _ _ _ (.of_same rfl rfl)
  · exact .of_same rfl rfl
  · exact follows_answer _ _ _ _ (.refl s)
  · exact follows_answer _ _ _ _ (.refl s)

theorem follows_resumeService (q : Octet) (s : State) : Follows s (manageResumeService q s) := by
  unfold manageResumeService; dsimp only; split
  · exact follows_answer _ _ _ _ (follows_answer _ _ _ _ (.of_same rfl rfl))
  · exact follows_answer _ _ _ _ (.of_same rfl rfl)

theorem follows_flushCache (q : Octet) (s : State) : Follows s (manageFlushCache q s) := by
  unfold manageFlushCache; split
  · exact follows_answer _ _ _ _ (.of_same rfl rfl)
  · exact follows_answer _ _ _ _ (.refl s)

end Sys2Proof.KioskLanes

namespace Sys2Proof.KioskLanes

open Sys2Proof Sys2Proof.Machine Sys2Proof.Safety

/-! ## Lanes read and written -/

/-- Writing back what a lane holds changes nothing. -/
@[simp] theorem setLane_lane (s : State) (i : LaneId) : s.setLane i (s.lane i) = s := by
  simp [State.setLane, State.lane]

theorem lane_of_lanes {s t : State} (h : t.lanes = s.lanes) (i : LaneId) : t.lane i = s.lane i := by
  rw [State.lane, State.lane, h]

/-! ## What an abort leaves alone beside the contexts -/

/-- The lanes, the transaction counters, the commit records, the link counters and the generations are as they were. -/
structure Still (s t : State) : Prop where
  lanes : t.lanes = s.lanes
  counters : t.dct.counters = s.dct.counters
  cu : t.cu = s.cu
  link : t.bli.counters = s.bli.counters
  gen : ∀ c, (t.ctx c).gen = (s.ctx c).gen

theorem Still.refl (s : State) : Still s s := ⟨rfl, rfl, rfl, rfl, fun _ => rfl⟩

theorem Still.trans {s t u : State} (h : Still s t) (g : Still t u) : Still s u :=
  ⟨g.lanes.trans h.lanes, g.counters.trans h.counters, g.cu.trans h.cu, g.link.trans h.link,
    fun c => (g.gen c).trans (h.gen c)⟩

theorem Still.of_hushed {s t : State} (h : Hushed s t) : Still s t := ⟨h.lanes, h.counters, h.cu, h.link, h.gen⟩

theorem still_setTxn (s : State) (c : CtxId) (x : Option Txn) : Still s (s.setTxn c x) := by
  refine ⟨rfl, rfl, rfl, rfl, fun d => ?_⟩
  by_cases h : c = d
  · subst h; simp [State.setTxn]
  · simp [State.setTxn, State.ctx_setCtx_ne s _ h]

theorem still_freeCtx (c : CtxId) (s : State) : Still s (freeCtx c s).1 := by
  unfold freeCtx; split
  · exact .refl s
  · next x _ =>
    have left : Still s ((leaveLists c s).setTxn c none) := by
      have h := still_setTxn (leaveLists c s) c none
      exact ⟨h.lanes, h.counters, h.cu, h.link, h.gen⟩
    exact left.trans (.of_hushed (hushed_releaseAll c x _))

theorem still_abortCtx (c : CtxId) (s : State) : Still s (abortCtx c s).1 := by
  unfold abortCtx; repeat' split
  · exact .refl s
  · exact still_freeCtx c s
  · exact still_freeCtx c s
  · exact still_setTxn s c _

theorem still_abortWhere (test : Txn → Bool) (cs : List CtxId) (s : State) :
    Still s (abortWhere test cs s).1 := by
  induction cs generalizing s with
  | nil => exact .refl s
  | cons c cs ih =>
    unfold abortWhere; split
    · exact (still_abortCtx c s).trans (ih _)
    · exact ih s

/-- An abort, carried to its end with all that it sets off, leaves the lanes as they were. -/
theorem still_abort (test : Txn → Bool) (s : State) : Still s (settle (abortWhere test allContexts s)) :=
  (still_abortWhere test _ s).trans (.of_hushed (hushed_settle _ (quiet_abortWhere test _ s)))

@[simp] theorem lane_abortLane (i j : LaneId) (s : State) : (abortLane i s).lane j = s.lane j :=
  lane_of_lanes (still_abort _ s).lanes j

@[simp] theorem lane_abortDrop (i j : LaneId) (d : DropId) (s : State) : (abortDrop i d s).lane j = s.lane j :=
  lane_of_lanes (still_abort _ s).lanes j

/-! ## A property that every operation of a lane keeps -/

/-- The operations of a lane, in the states in which the part applies them, keep a property of lanes. -/
structure LaneKept (q : Lane → Prop) : Prop where
  reset : q Lane.reset
  offer : ∀ l d body, q l → q (l.offer d body)
  cleared : ∀ l, q l → q { l with counters := LaneCounters.zero }
  count : ∀ l k, q l → q (l.count k)
  breakEnd : ∀ l, q l → q l.breakEnd
  gapEnd : ∀ l, q l → q l.gapEnd
  turnStart : ∀ l, q l → q l.turnStart
  transmitEnd : ∀ l, q l → q l.transmitEnd
  frameGapOut : ∀ l, q l → q l.frameGapOut
  quietEnd : ∀ l, q l → q l.quietEnd
  windowOut : ∀ l, q l → q l.windowOut
  heldStands : ∀ l, q l → q l.heldStands
  hold : ∀ l v, q l → q { l with held := v }
  bad : ∀ l, q l → q l.badCharacter
  first : ∀ l d c, q l → l.turn = some ⟨d, .window⟩ → q (l.firstCharacter d c)
  discard : ∀ l d k, q l → l.turn = some ⟨d, .assembly⟩ → q (l.discard d k)
  length : ∀ l d c, q l → l.turn = some ⟨d, .assembly⟩ → l.assembly.length < 2 → bodyLengthOk c.data.toNat = true →
    q { l with assembly := l.assembly ++ [c] }
  body : ∀ l d c, q l → l.turn = some ⟨d, .assembly⟩ → 2 ≤ l.assembly.length →
    l.assembly.length + 1 ≠ 2 + l.bodyLength → q { l with assembly := l.assembly ++ [c] }
  complete : ∀ l, q l → q { l.endTurn with assembly := [] }
  rate : ∀ l r, q l → q { l with rate := r }
  start : ∀ l, q l → l.mode = .isolated → q l.enterStarting
  cutOff : ∀ l, q l → q l.abort
  restart : ∀ l, q l → q l.abort.enterStarting
  isolate : ∀ l, q l → q l.abort.enterIsolated
  dropOff : ∀ l d, q l → q { l.setDropRec d { l.dropRec d with enrolment := .off } with
    replies := l.replies.filter fun x => decide (x.drop ≠ d) }
  dropOn : ∀ l d e, q l → l.idle = false → q (l.setDropRec d { l.dropRec d with enrolment := e })
  dropIdle : ∀ l d e, q l → l.idle = true → q (Lane.nextTurn roundBound
    { l.setDropRec d { l.dropRec d with enrolment := e } with idle := false })

/-- A property of the state that the events of transactions keep, the acceptance of a context, and every change of a
lane to one with the property `q`. -/
structure Lanewise (q : Lane → Prop) (P : State → Prop) : Prop where
  lane : ∀ s i, P s → q (s.lane i)
  setLane : ∀ s i l, P s → q l → P (s.setLane i l)
  follows : ∀ s t, P s → Follows s t → P t
  accepted : ∀ i d kind tag payload c req s, P s → acceptance i d kind tag payload s = .ok (c, req) →
    P (s.setCtx c ⟨(s.ctx c).gen + 1, some (newTxn i d tag req)⟩)
  cleared : ∀ s, P s → P (clearCounters s)
  reset : ∀ phase straps cause s, P s → P (resetAll phase straps cause s)

namespace Lanewise

variable {q : Lane → Prop} {P : State → Prop}

theorem same (w : Lanewise q P) {s t : State} (h : P s) (lanes : t.lanes = s.lanes)
    (contexts : t.dct.contexts = s.dct.contexts) : P t := w.follows s t h (.of_same lanes contexts)

theorem mapLane (w : Lanewise q P) (f : Lane → Lane) (hf : ∀ l, q l → q (f l)) (i : LaneId) (s : State) (h : P s) :
    P (s.mapLane i f) := w.setLane s i _ h (hf _ (w.lane s i h))

/-- A complete frame's treatment is an offer, a reply or the acceptance of a context (R40, R41, R43). -/
theorem dispatch (w : Lanewise q P) (i : LaneId) (d : DropId) (body : List Octet) (s : State) (h : P s) :
    P (Machine.dispatch i d body s) := by
  unfold Machine.dispatch; dsimp only; split
  · exact w.follows _ _ h (follows_offerRelay _ _ _ s)
  · exact w.follows _ _ h (follows_offerReply _ _ _ s)
  split
  · exact w.follows _ _ h (follows_offerReply _ _ _ s)
  · next c req e =>
    exact w.follows _ _ (w.accepted _ _ _ _ _ _ _ s h e) (follows_settle _ ((Follows.refl _).countTxn _))

theorem assembleCharacter (k : LaneKept q) (w : Lanewise q P) (i : LaneId) (d : DropId) (c : LaneChar) (s : State)
    (h : P s) (turn : (s.lane i).turn = some ⟨d, .assembly⟩) : P (Machine.assembleCharacter i d c s) := by
  have hl := w.lane s i h
  unfold Machine.assembleCharacter
  dsimp only
  split
  · exact w.setLane s i _ h (k.discard _ d _ hl turn)
  split
  · next short =>
    split
    · next ok => exact w.setLane s i _ h (k.length _ d c hl turn short ok)
    · exact w.setLane s i _ h (k.discard _ d _ hl turn)
  next long =>
  split
  · unfold completeFrame; dsimp only; split
    · exact w.dispatch _ _ _ _ (w.setLane s i _ h (k.count _ _ (k.complete _ hl)))
    · exact w.setLane s i _ h (k.complete _ hl)
  · next more =>
    exact w.setLane s i _ h (k.body _ d c hl turn (by omega) (by simpa using more))

theorem takeCharacter (k : LaneKept q) (w : Lanewise q P) (i : LaneId) (x : Samples) (s : State) (h : P s) :
    P (Machine.takeCharacter i x s) := by
  have h' := w.mapLane Lane.heldStands k.heldStands i s h
  have hl := w.lane _ i h'
  unfold Machine.takeCharacter
  split
  · split
    · exact h
    · dsimp only; split
      · exact h'
      · exact w.setLane _ i _ h' (k.hold _ _ hl)
      · exact w.setLane _ i _ h' (k.bad _ hl)
      · split
        · next d turn => exact w.setLane _ i _ h' (k.first _ d _ hl turn)
        · next d turn => exact assembleCharacter k w i d _ _ h' turn
        · exact h'
  · exact h

/-- A lane abort, the lane then in a mode that suits one that is cut off. -/
theorem laneAbort (k : LaneKept q) (w : Lanewise q P) (i : LaneId) (f : Lane → Lane) (hf : ∀ l, q l → q (f l.abort))
    (s : State) (h : P s) : P (Machine.laneAbort i f s) := by
  have cut := w.mapLane Lane.abort k.cutOff i s h
  have aborted : P (abortLane i (s.mapLane i Lane.abort)) :=
    w.follows _ _ cut (follows_settle _ (follows_abortWhere _ _ _))
  refine w.setLane _ i _ aborted ?_
  rw [lane_abortLane, State.lane_mapLane]
  exact hf _ (w.lane s i h)

theorem takeBreak (k : LaneKept q) (w : Lanewise q P) (i : LaneId) (s : State) (h : P s) :
    P (Machine.takeBreak i s) := by
  unfold Machine.takeBreak; split
  · exact laneAbort k w i _ k.restart _ (w.mapLane _ (fun l => k.count l _) i s h)
  · exact h

theorem takeSetLane (k : LaneKept q) (w : Lanewise q P) (i : LaneId) (serve : Bool) (r : Fin 5) (s : State) (h : P s) :
    P (Machine.takeSetLane i serve r s) := by
  have hl := w.lane s i h
  unfold Machine.takeSetLane; dsimp only; split
  · exact w.mapLane _ (fun l => k.rate l r) i s h
  · next mode => exact w.setLane s i _ h (k.start _ (k.rate _ r hl) mode)
  · exact laneAbort k w i _ (fun l hl => k.isolate { l with rate := r } (k.rate l r hl)) s h
  · split
    · exact h
    · exact laneAbort k w i _ (fun l hl => k.restart { l with rate := r } (k.rate l r hl)) s h

theorem takeSetDrop (k : LaneKept q) (w : Lanewise q P) (i : LaneId) (d : DropId) (e : Enrolment) (s : State)
    (h : P s) : P (Machine.takeSetDrop i d e s) := by
  have hl := w.lane s i h
  unfold Machine.takeSetDrop; dsimp only
  split
  · exact h
  split
  · next off =>
    subst off
    exact w.follows _ _ (w.setLane s i _ h (k.dropOff _ d hl)) (follows_settle _ (follows_abortWhere _ _ _))
  split
  · next idle => exact w.setLane s i _ h (k.dropIdle _ d e hl idle)
  · next idle => exact w.setLane s i _ h (k.dropOn _ d e hl (by simpa [Lane.setDropRec] using idle))

/-- What every change of a lane and every event of transactions keeps, every step keeps. -/
theorem keeps (k : LaneKept q) (w : Lanewise q P) : Keeps P where
  queue _ _ h := w.same h rfl rfl
  receiver _ _ h _ _ _ _ := w.same h rfl rfl
  octet _ h := w.same h rfl rfl
  reset := w.reset
  power _ h := w.same h rfl rfl
  breakEnd := w.mapLane _ k.breakEnd
  gapEnd := w.mapLane _ k.gapEnd
  turnStart := w.mapLane _ k.turnStart
  transmitEnd := w.mapLane _ k.transmitEnd
  frameGapOut := w.mapLane _ k.frameGapOut
  quietEnd := w.mapLane _ k.quietEnd
  windowOut := w.mapLane _ k.windowOut
  heldStands := w.mapLane _ k.heldStands
  character := takeCharacter k w
  lineBreak := takeBreak k w
  reply i d body s h := w.follows s _ h (follows_offerReply i d body s)
  segment _ _ _ _ _ _ _ _ h := w.follows _ _ h (follows_takeSegment ..)
  absent _ _ h := w.follows _ _ h (follows_takeAbsent ..)
  defer _ _ _ h := w.follows _ _ h (follows_takeDefer ..)
  notice _ _ _ _ h := w.follows _ _ h (follows_takeInvalidate ..)
  result _ _ _ _ _ h := w.follows _ _ h (follows_takeResult ..)
  delayEnd _ _ h := w.follows _ _ h (follows_endDelay ..)
  fetchOut _ _ h := w.follows _ _ h (follows_fetchTimerOut ..)
  commitOut _ _ h := w.follows _ _ h (follows_commitTimerOut ..)
  deadline _ _ h := w.follows _ _ h (follows_deadlineFalls ..)
  sent _ h := w.follows _ _ h (follows_endFrame _)
  decision _ _ h := w.follows _ _ h (follows_takeDecision ..)
  setLane q a b c s h _ := by
    have answered : ∀ r t, P t → P (answer q setLaneCode r [] t) := fun r t ht =>
      w.follows t _ ht (follows_answer _ _ _ _ (.refl t))
    unfold manageSetLane; repeat' split
    · exact answered _ _ (takeSetLane k w _ _ _ s h)
    · exact answered _ _ (takeSetLane k w _ _ _ s h)
    · exact answered _ _ h
    · exact answered _ _ h
  setDrop q a b c s h _ := by
    have answered : ∀ r t, P t → P (answer q setDropCode r [] t) := fun r t ht =>
      w.follows t _ ht (follows_answer _ _ _ _ (.refl t))
    unfold manageSetDrop; split
    · exact answered _ _ (takeSetDrop k w _ _ _ s h)
    · exact answered _ _ h
  setDay _ _ _ h _ := w.follows _ _ h (follows_setDay ..)
  setOverride _ _ _ h _ := w.follows _ _ h (follows_setOverride ..)
  quiesce _ _ h _ := w.follows _ _ h (follows_quiesce ..)
  resumeService _ _ h _ := w.follows _ _ h (follows_resumeService ..)
  flushCache _ _ h _ := w.follows _ _ h (follows_flushCache ..)
  readCounters _ _ s h _ := by
    unfold manageReadCounters; split
    · exact w.follows _ _ (w.cleared s h) (follows_answer _ _ _ _ (.refl _))
    · exact w.follows _ _ h (follows_answer _ _ _ _ (.refl _))
  answered _ _ _ _ s h _ := w.follows s _ h (follows_answer _ _ _ _ (.refl s))
  tableClear _ _ _ h _ := w.follows _ _ h (follows_tableClear ..)
  tableWrite _ _ _ _ _ h _ := w.follows _ _ h (follows_tableWrite ..)
  tableClose _ _ _ h _ := w.follows _ _ h (follows_tableClose ..)
  tableAbort _ _ h _ := w.follows _ _ h (follows_tableAbort ..)
  tableStatusClear _ _ h _ := w.follows _ _ h (follows_tableStatusClear ..)
  clearDone _ h := w.follows _ _ h (follows_clearCompletes _)
  writeDone _ h := w.follows _ _ h (follows_writeCompletes _)
  closeDone _ h := w.follows _ _ h (follows_closeCompletes _)

end Lanewise

/-! ## A property of every lane -/

theorem lane_clearCounters (s : State) (i : LaneId) :
    (clearCounters s).lane i = { s.lane i with counters := LaneCounters.zero } := by
  simp [State.lane, clearCounters]

theorem lane_resetAll (phase : RxPhase) (straps : BitVec 6) (cause : ResetCause) (s : State) (i : LaneId) :
    (resetAll phase straps cause s).lane i = Lane.reset := by
  simp [State.lane, resetAll, State.afterReset]

/-- What every lane's operations keep holds of all four lanes after every event. -/
theorem LaneKept.lanewise {q : Lane → Prop} (k : LaneKept q) : Lanewise q fun s => ∀ i, q (s.lane i) where
  lane _ i h := h i
  setLane s i l h hl j := by
    by_cases e : i = j
    · subst e; rwa [State.lane_setLane]
    · rw [State.lane_setLane_ne s l e]; exact h j
  follows s t h f i := by
    have offers : ∀ l l', Relation.ReflTransGen Offered l l' → q l → q l' := fun l l' steps hl => by
      induction steps with
      | refl => exact hl
      | tail _ last ih =>
        obtain ⟨d, body, rfl⟩ := last
        exact k.offer _ d body ih
    exact offers _ _ (f.lanes i) (h i)
  accepted _ _ _ _ _ _ _ _ h _ := h
  cleared s h i := by rw [lane_clearCounters]; exact k.cleared _ (h i)
  reset _ _ _ s _ i := by rw [lane_resetAll]; exact k.reset

end Sys2Proof.KioskLanes

namespace Sys2Proof.KioskLanes

open Sys2Proof Sys2Proof.Machine Sys2Proof.Safety

/-! ## Reply queues (R20, R21) -/

theorem bodyLengthOk_iff {n : Nat} : bodyLengthOk n = true ↔ 2 ≤ n ∧ n ≤ 62 := decide_eq_true_iff

/-- A reply queue of at most 16 replies, each of 2 to 62 characters. -/
def ReplyBounds (l : Lane) : Prop := l.replies.length ≤ 16 ∧ ∀ r ∈ l.replies, 2 ≤ r.body.length ∧ r.body.length ≤ 62

theorem ReplyBounds.sublist {l m : Lane} (h : ReplyBounds l) (sub : m.replies.Sublist l.replies) : ReplyBounds m :=
  ⟨sub.length_le.trans h.1, fun r hr => h.2 r (sub.subset hr)⟩

theorem replyBounds_offer (l : Lane) (d : DropId) (body : List Octet) (h : ReplyBounds l) :
    ReplyBounds (l.offer d body) := by
  unfold Lane.offer
  split_ifs with _ _ length room
  · exact h
  · exact h
  · exact h
  · exact h
  · have length : 2 ≤ body.length ∧ body.length ≤ 62 := bodyLengthOk_iff.mp (by simpa using length)
    refine ⟨by simp only [List.length_append, List.length_singleton]; omega, fun r hr => ?_⟩
    rcases List.mem_append.mp hr with hr | hr
    · exact h.2 r hr
    · rw [List.mem_singleton.mp hr]; exact length

theorem replies_nextTurn (n : Nat) (l : Lane) : (Lane.nextTurn n l).replies.Sublist l.replies := by
  induction n generalizing l with
  | zero => exact .refl _
  | succ n ih =>
    unfold Lane.nextTurn
    split
    · exact List.eraseP_sublist
    split
    · exact ih l.endRound
    · exact .refl _

theorem replies_badCharacter (l : Lane) : l.badCharacter.replies = l.replies := by
  unfold Lane.badCharacter; split <;> rfl

theorem replyBounds_kept : LaneKept ReplyBounds where
  reset := ⟨Nat.zero_le _, by simp [Lane.reset]⟩
  offer := replyBounds_offer
  cleared _ h := h
  count _ _ h := h
  breakEnd l h := h.sublist (by unfold Lane.breakEnd; split <;> exact .refl _)
  gapEnd l h := h.sublist (by
    unfold Lane.gapEnd; split
    · exact replies_nextTurn _ { l with mode := .serve }
    · exact .refl _)
  turnStart l h := h.sublist (by
    unfold Lane.turnStart; split
    · exact replies_nextTurn _ l
    · exact .refl _)
  transmitEnd l h := h.sublist (by unfold Lane.transmitEnd; split <;> exact .refl _)
  frameGapOut l h := h.sublist (by unfold Lane.frameGapOut; split <;> exact .refl _)
  quietEnd l h := h.sublist (by unfold Lane.quietEnd; split <;> exact .refl _)
  windowOut l h := h.sublist (by unfold Lane.windowOut; split <;> exact .refl _)
  heldStands l h := h.sublist (by
    unfold Lane.heldStands; split
    · exact .refl _
    · rw [replies_badCharacter]
    · exact .refl _)
  hold _ _ h := h
  bad l h := h.sublist (by rw [replies_badCharacter])
  first l d c h _ := h.sublist (by unfold Lane.firstCharacter; dsimp only; split_ifs <;> exact .refl _)
  discard _ _ _ h _ := h
  length _ _ _ h _ _ _ := h
  body _ _ _ h _ _ _ := h
  complete _ h := h
  rate _ _ h := h
  start _ h _ := h
  cutOff l h := h.sublist (List.nil_sublist _)
  restart l h := h.sublist (List.nil_sublist _)
  isolate l h := h.sublist (List.nil_sublist _)
  dropOff l d h := h.sublist List.filter_sublist
  dropOn _ _ _ h _ := h
  dropIdle l d e h _ := h.sublist (replies_nextTurn _ { l.setDropRec d _ with idle := false })

/-! ## Turns and assembly buffers (R1, R2, R3, R11, R14) -/

theorem laneShape_offTurn {l : Lane} (turn : l.turn = none) (empty : l.assembly = [])
    (idle : l.idle = true → l.mode = .serve ∧ l.lastVisited = 0 ∧ ∀ d, (l.dropRec d).enrolment = .off)
    (starting : ∀ p, l.mode = .starting p → l.round = 0 ∧ l.lastVisited = 0) : LaneShape l := by
  refine ⟨fun _ => turn, fun h => ?_, starting, by rw [turn]; exact empty⟩
  obtain ⟨serve, last, off⟩ := idle h
  exact ⟨serve, turn, last, off⟩

theorem laneShape_inTurn {l : Lane} {d : DropId} {p : TurnPhase} (serve : l.mode = .serve) (busy : l.idle = false)
    (turn : l.turn = some ⟨d, p⟩) (phase : p ≠ .assembly) (empty : l.assembly = []) : LaneShape l := by
  refine ⟨fun h => absurd serve h, fun h => by simp [busy] at h, fun q h => by simp [serve] at h, ?_⟩
  rw [turn]
  cases p with
  | assembly => exact absurd rfl phase
  | transmitting | window | quietWait => exact empty

theorem laneShape_assembling {l : Lane} {d : DropId} (serve : l.mode = .serve) (busy : l.idle = false)
    (turn : l.turn = some ⟨d, .assembly⟩) (first : l.assembly.head? = some (addressChar d))
    (length : 2 ≤ l.assembly.length → bodyLengthOk l.bodyLength = true ∧ l.assembly.length < 2 + l.bodyLength) :
    LaneShape l := by
  refine ⟨fun h => absurd serve h, fun h => by simp [busy] at h, fun q h => by simp [serve] at h, ?_⟩
  rw [turn]
  exact ⟨first, length⟩

section
variable {l : Lane} (h : LaneShape l)
include h

theorem noTurn_offServe (mode : l.mode ≠ .serve) : l.turn = none := by
  obtain ⟨off, -⟩ := h
  exact off mode

theorem idle_shape (idle : l.idle = true) : l.mode = .serve ∧ l.turn = none ∧ l.lastVisited = 0 ∧
    ∀ d, (l.dropRec d).enrolment = .off := by
  obtain ⟨-, resting, -⟩ := h
  exact resting idle

theorem serve_of_turn {t : Turn} (turn : l.turn = some t) : l.mode = .serve := by
  by_contra serve
  rw [noTurn_offServe h serve] at turn; cases turn

theorem busy_of_turn {t : Turn} (turn : l.turn = some t) : l.idle = false := by
  by_contra idle
  obtain ⟨-, none, -⟩ := idle_shape h (by simpa using idle)
  rw [none] at turn; cases turn

theorem busy_of_mode (mode : l.mode ≠ .serve) : l.idle = false := by
  by_contra idle
  obtain ⟨serve, -⟩ := idle_shape h (by simpa using idle)
  exact mode serve

theorem starting_fresh (p : StartPhase) (mode : l.mode = .starting p) : l.round = 0 ∧ l.lastVisited = 0 := by
  obtain ⟨-, -, starting, -⟩ := h
  exact starting p mode

theorem empty_offAssembly (phase : ∀ d, l.turn ≠ some ⟨d, .assembly⟩) : l.assembly = [] := by
  obtain ⟨-, -, -, buffer⟩ := h
  split at buffer
  · next d turn => exact absurd turn (phase d)
  · exact buffer

theorem empty_offTurn (turn : l.turn = none) : l.assembly = [] := empty_offAssembly h (by simp [turn])

theorem empty_inTurn {d : DropId} {p : TurnPhase} (turn : l.turn = some ⟨d, p⟩) (phase : p ≠ .assembly) :
    l.assembly = [] := by
  refine empty_offAssembly h fun e g => phase ?_
  rw [turn] at g
  injection g with g; injection g

theorem buffer_inAssembly {d : DropId} (turn : l.turn = some ⟨d, .assembly⟩) :
    l.assembly.head? = some (addressChar d) ∧
      (2 ≤ l.assembly.length → bodyLengthOk l.bodyLength = true ∧ l.assembly.length < 2 + l.bodyLength) := by
  obtain ⟨-, -, -, buffer⟩ := h
  rwa [turn] at buffer

end

theorem laneShape_offer (l : Lane) (d : DropId) (body : List Octet) (h : LaneShape l) : LaneShape (l.offer d body) := by
  unfold Lane.offer; split_ifs <;> exact h

theorem laneShape_nextTurn (n : Nat) (l : Lane) (serve : l.mode = .serve) (turn : l.turn = none)
    (empty : l.assembly = []) (busy : l.idle = false) : LaneShape (Lane.nextTurn n l) := by
  induction n generalizing l with
  | zero => exact laneShape_offTurn turn empty (by simp [Lane.nextTurn, busy]) (by simp [Lane.nextTurn, serve])
  | succ n ih =>
    unfold Lane.nextTurn
    split
    · next d _ => exact laneShape_inTurn (d := d) serve rfl rfl nofun empty
    split
    · next enrolled => exact ih l.endRound serve turn empty (by simp [Lane.endRound, enrolled])
    · next enrolled =>
      refine laneShape_offTurn turn empty (fun _ => ⟨serve, rfl, fun d => ?_⟩) (by simp [Lane.endRound, serve])
      have none : ∀ d, (l.dropRec d).enrolled = false := by
        simp only [Lane.anyEnrolled, List.any_eq_true, not_exists, not_and, Bool.not_eq_true] at enrolled
        exact fun d => enrolled d (by revert d; decide)
      have off := none d
      simp only [DropRecord.enrolled, decide_eq_false_iff_not, not_not] at off
      exact off

/-- A busy lane's drop records may change. -/
theorem laneShape_drops {l : Lane} (h : LaneShape l) (busy : l.idle = false) (drops : Vector DropRecord 8) :
    LaneShape { l with drops := drops } := by
  obtain ⟨off, -, starting, buffer⟩ := h
  refine ⟨off, fun idle => ?_, starting, buffer⟩
  have idle : l.idle = true := idle
  rw [busy] at idle; cases idle

theorem laneShape_discard {l : Lane} (d : DropId) (k : LaneCounter) (serve : l.mode = .serve) (busy : l.idle = false) :
    LaneShape (l.discard d k) := laneShape_inTurn (d := d) serve busy rfl nofun rfl

/-- The turn of a lane ends with its buffer empty. -/
theorem laneShape_endTurn (l : Lane) (h : LaneShape l) (drops : Vector DropRecord 8)
    (same : l.turn = none → drops = l.drops) (c : LaneCounters) :
    LaneShape { l with turn := none, assembly := [], drops := drops, counters := c } := by
  have starting := starting_fresh h
  refine laneShape_offTurn rfl rfl (fun idle => ?_) starting
  obtain ⟨serve, turn, last, off⟩ := idle_shape h idle
  refine ⟨serve, last, fun d => ?_⟩
  have := off d
  simp only [Lane.dropRec, same turn]
  exact this

theorem laneShape_badCharacter (l : Lane) (h : LaneShape l) : LaneShape l.badCharacter := by
  unfold Lane.badCharacter; split
  · next d turn =>
    have serve := serve_of_turn h turn
    have busy := busy_of_turn h turn
    exact laneShape_discard (l := l.answered d) d _ serve busy
  · next d turn => exact laneShape_discard d _ (serve_of_turn h turn) (busy_of_turn h turn)
  · exact h

theorem laneShape_firstCharacter (l : Lane) (d : DropId) (c : LaneChar) (h : LaneShape l)
    (turn : l.turn = some ⟨d, .window⟩) : LaneShape (l.firstCharacter d c) := by
  have serve := serve_of_turn h turn
  have busy := busy_of_turn h turn
  have empty : l.assembly = [] := empty_inTurn h turn nofun
  unfold Lane.firstCharacter; dsimp only; split_ifs with address
  · subst address
    exact laneShape_assembling (d := d) serve busy rfl rfl (by simp)
  · have ended := laneShape_endTurn l h (l.answered d).drops (fun none => by rw [none] at turn; cases turn)
      (l.counters.advance .nils)
    rwa [← empty] at ended
  · exact laneShape_discard (l := l.answered d) d _ serve busy

theorem laneShape_length (l : Lane) (d : DropId) (c : LaneChar) (h : LaneShape l)
    (turn : l.turn = some ⟨d, .assembly⟩) (short : l.assembly.length < 2) (ok : bodyLengthOk c.data.toNat = true) :
    LaneShape { l with assembly := l.assembly ++ [c] } := by
  obtain ⟨first, -⟩ := buffer_inAssembly h turn
  obtain ⟨a, rest⟩ : ∃ a, l.assembly = [a] := by
    cases e : l.assembly with
    | nil => rw [e] at first; cases first
    | cons a as => cases as with
      | nil => exact ⟨a, rfl⟩
      | cons b bs => rw [e] at short; simp at short
  have serve := serve_of_turn h turn
  have busy := busy_of_turn h turn
  refine laneShape_assembling (d := d) serve busy turn ?_ fun _ => ?_
  · simpa [rest] using first
  · have length : 2 ≤ c.data.toNat ∧ c.data.toNat ≤ 62 := bodyLengthOk_iff.mp ok
    simp only [Lane.bodyLength, rest, List.singleton_append, List.getD_cons_succ, List.getD_cons_zero, List.length_cons,
      List.length_nil]
    exact ⟨ok, by omega⟩

theorem laneShape_body (l : Lane) (d : DropId) (c : LaneChar) (h : LaneShape l)
    (turn : l.turn = some ⟨d, .assembly⟩) (long : 2 ≤ l.assembly.length)
    (more : l.assembly.length + 1 ≠ 2 + l.bodyLength) : LaneShape { l with assembly := l.assembly ++ [c] } := by
  obtain ⟨first, length⟩ := buffer_inAssembly h turn
  obtain ⟨ok, below⟩ := length long
  have same : ({ l with assembly := l.assembly ++ [c] } : Lane).bodyLength = l.bodyLength := by
    simp only [Lane.bodyLength]
    rw [List.getD_append _ _ _ _ (by omega)]
  have serve := serve_of_turn h turn
  have busy := busy_of_turn h turn
  refine laneShape_assembling (d := d) serve busy turn ?_ fun _ => ?_
  · cases e : l.assembly with
    | nil => rw [e] at first; cases first
    | cons a as => rw [e] at first; simpa using first
  · rw [same]
    refine ⟨ok, ?_⟩
    simp only [List.length_append, List.length_singleton]
    omega

theorem laneShape_kept : LaneKept LaneShape where
  reset := laneShape_offTurn rfl rfl (by simp [Lane.reset]) (by simp [Lane.reset])
  offer := laneShape_offer
  cleared _ h := h
  count _ _ h := h
  breakEnd l h := by
    unfold Lane.breakEnd; split
    · next mode =>
      have turn := h.1 (by simp [mode])
      have busy := busy_of_mode h (by simp [mode])
      have empty := empty_offTurn h turn
      have fresh := starting_fresh h _ mode
      exact laneShape_offTurn turn empty (fun idle => by rw [show l.idle = true from idle] at busy; cases busy)
        fun _ _ => fresh
    · exact h
  gapEnd l h := by
    unfold Lane.gapEnd; split
    · next mode =>
      have turn := h.1 (by simp [mode])
      have busy := busy_of_mode h (by simp [mode])
      have empty := empty_offTurn h turn
      exact laneShape_nextTurn _ { l with mode := .serve } rfl turn empty busy
    · exact h
  turnStart l h := by
    unfold Lane.turnStart; split
    · next now =>
      obtain ⟨serve, turn, busy⟩ := now
      exact laneShape_nextTurn _ l serve turn (empty_offTurn h turn) busy
    · exact h
  transmitEnd l h := by
    unfold Lane.transmitEnd; split
    · next d _ serve turn =>
      have busy := busy_of_turn h turn
      have empty : l.assembly = [] := empty_inTurn h turn nofun
      exact laneShape_inTurn (d := d) serve busy rfl nofun empty
    · exact h
  frameGapOut l h := by
    unfold Lane.frameGapOut; split
    · exact laneShape_endTurn l h l.drops (fun _ => rfl) _
    · exact h
  quietEnd l h := by
    unfold Lane.quietEnd; split
    · next turn =>
      have ended := laneShape_endTurn l h l.drops (fun _ => rfl) l.counters
      have empty : l.assembly = [] := empty_inTurn h turn nofun
      rwa [← empty] at ended
    · exact h
  windowOut l h := by
    unfold Lane.windowOut; split
    · next d turn _ =>
      have ended := laneShape_endTurn l h (l.setDropRec d (l.dropRec d).miss).drops
        (fun none => by rw [none] at turn; cases turn) (l.counters.advance .misses)
      have empty : l.assembly = [] := empty_inTurn h turn nofun
      rwa [← empty] at ended
    · exact h
  heldStands l h := by
    unfold Lane.heldStands; split
    · exact h
    · exact laneShape_badCharacter _ h
    · exact h
  hold _ _ h := h
  bad := laneShape_badCharacter
  first := laneShape_firstCharacter
  discard l d k h turn := laneShape_discard d k (serve_of_turn h turn) (busy_of_turn h turn)
  length := laneShape_length
  body := laneShape_body
  complete l h := laneShape_endTurn l h l.drops (fun _ => rfl) l.counters
  rate _ _ h := h
  start l h mode := by
    have empty := empty_offTurn h (noTurn_offServe h (by simp [mode]))
    exact laneShape_offTurn rfl empty nofun fun _ _ => ⟨rfl, rfl⟩
  cutOff l h := laneShape_endTurn l h l.drops (fun _ => rfl) l.counters
  restart l h := laneShape_offTurn rfl rfl nofun fun _ _ => ⟨rfl, rfl⟩
  isolate l h := laneShape_offTurn rfl rfl nofun nofun
  dropOff l d h := by
    have ⟨quiet, _, starting, buffer⟩ := h
    refine ⟨quiet, fun idle => ?_, starting, buffer⟩
    obtain ⟨serve, turn, last, off⟩ := idle_shape h idle
    refine ⟨serve, turn, last, fun e => ?_⟩
    by_cases same : d = e
    · subst same; simp [Lane.setDropRec, Lane.dropRec]
    · have ne : d.val ≠ e.val := fun eq => same (Fin.ext eq)
      have := off e
      simpa [Lane.setDropRec, Lane.dropRec, ne] using this
  dropOn l d e h busy := laneShape_drops h busy _
  dropIdle l d e h idle := by
    obtain ⟨serve, turn, -⟩ := idle_shape h idle
    have empty := empty_offTurn h turn
    exact laneShape_nextTurn _ { l.setDropRec d _ with idle := false } serve turn empty rfl

end Sys2Proof.KioskLanes

namespace Sys2Proof.KioskLanes

open Sys2Proof Sys2Proof.Machine Sys2Proof.Safety

theorem mem_allContexts (c : CtxId) : c ∈ allContexts := by revert c; decide

/-! ## Transactions in flight (R43, R47, R61) -/

/-- The kiosk tag of a context while it is busy for a drop of a lane. -/
def tagAt (s : State) (i : LaneId) (d : DropId) (c : CtxId) : Option Octet :=
  (s.txn c).bind fun x => if x.lane = i ∧ x.drop = d then some x.kioskTag else none

/-- The kiosk tags of a drop's transactions in flight, in context order. -/
def tagsOf (s : State) (i : LaneId) (d : DropId) : List Octet := allContexts.filterMap (tagAt s i d)

theorem flying_tags (s : State) (i : LaneId) (d : DropId) : (flying s i d).map Txn.kioskTag = tagsOf s i d := by
  unfold flying tagsOf
  induction allContexts with
  | nil => rfl
  | cons c cs ih => cases h : s.txn c with
    | none => simpa [tagAt, h] using ih
    | some x => by_cases e : x.lane = i ∧ x.drop = d <;> simpa [tagAt, h, e] using ih

theorem inFlight_tags (s : State) (i : LaneId) (d : DropId) :
    (Machine.inFlight i d s).map Txn.kioskTag = tagsOf s i d := by
  unfold Machine.inFlight tagsOf
  induction allContexts with
  | nil => rfl
  | cons c cs ih => cases h : s.txn c with
    | none => simpa [tagAt, h] using ih
    | some x => by_cases e : x.lane = i ∧ x.drop = d <;> simpa [tagAt, h, e] using ih

theorem inFlight_iff (s : State) : InFlight s ↔ ∀ i d, (tagsOf s i d).length ≤ 2 ∧ (tagsOf s i d).Nodup := by
  simp only [InFlight, ← flying_tags, List.length_map]

theorem tagAt_eq_some {s : State} {i : LaneId} {d : DropId} {c : CtxId} {tag : Octet} :
    tagAt s i d c = some tag ↔ ∃ x, s.txn c = some x ∧ hand x = (i, d, tag) := by
  simp [tagAt, hand, Option.bind_eq_some_iff, and_assoc]

theorem tagAt_of_free {s : State} {c : CtxId} (i : LaneId) (d : DropId) (h : s.txn c = none) :
    tagAt s i d c = none := by simp [tagAt, h]

/-- Fewer values from the same list. -/
theorem filterMap_sublist {α β : Type} {f g : α → Option β} (h : ∀ a b, f a = some b → g a = some b) (l : List α) :
    (l.filterMap f).Sublist (l.filterMap g) := by
  induction l with
  | nil => exact .refl _
  | cons a l ih => cases e : f a with
    | none => rw [List.filterMap_cons_none e]; exact ih.trans (List.Sublist.filterMap g (List.sublist_cons_self a l))
    | some b => rw [List.filterMap_cons_some e, List.filterMap_cons_some (h a b e)]; exact ih.cons_cons b

/-- One more value, wherever it stands in the list. -/
theorem filterMap_insert {α β : Type} {f g : α → Option β} {a : α} {b : β} (hf : f a = none) (hg : g a = some b)
    (same : ∀ x, x ≠ a → g x = f x) (l : List α) (mem : a ∈ l) (once : l.Nodup) :
    (l.filterMap g).Perm (b :: l.filterMap f) := by
  induction l with
  | nil => cases mem
  | cons x l ih =>
    obtain ⟨notin, once⟩ := List.nodup_cons.mp once
    by_cases e : x = a
    · subst e
      have rest : l.filterMap g = l.filterMap f :=
        List.filterMap_congr fun y hy => same y fun eq => notin (eq ▸ hy)
      rw [List.filterMap_cons_some hg, List.filterMap_cons_none hf, rest]
    · have perm := ih ((List.mem_cons.mp mem).resolve_left fun eq => e eq.symm) once
      cases v : f x with
      | none => rwa [List.filterMap_cons_none ((same x e).trans v), List.filterMap_cons_none v]
      | some y =>
        rw [List.filterMap_cons_some ((same x e).trans v), List.filterMap_cons_some v]
        exact (perm.cons y).trans (.swap b y _)

/-- Where no context begins or changes hands, no drop has more in flight. -/
theorem inFlight_sameHands {s t : State} (h : InFlight s) (same : SameHands s t) : InFlight t := by
  rw [inFlight_iff] at h ⊢
  intro i d
  have sub : (tagsOf t i d).Sublist (tagsOf s i d) := filterMap_sublist (fun c tag e => by
    obtain ⟨x, hx, hand⟩ := tagAt_eq_some.mp e
    obtain ⟨y, hy, eq⟩ := same c x hx
    exact tagAt_eq_some.mpr ⟨y, hy, eq.symm.trans hand⟩) _
  exact ⟨sub.length_le.trans (h i d).1, (h i d).2.sublist sub⟩

/-- What the acceptance checks found when they pass (R43, R47). -/
theorem acceptance_ok {i : LaneId} {d : DropId} {kind tag : Octet} {payload : List Octet} {c : CtxId} {req : Request}
    {s : State} (h : acceptance i d kind tag payload s = .ok (c, req)) :
    (tagsOf s i d).length < 2 ∧ tag ∉ tagsOf s i d ∧ s.txn c = none := by
  unfold acceptance at h
  split at h
  · cases h
  split at h
  · cases h
  split at h
  · cases h
  dsimp only at h
  split_ifs at h with two same
  split at h
  · cases h
  next c' free =>
  obtain ⟨rfl, rfl⟩ : c' = c ∧ _ = req := by injection h with h; exact Prod.mk.inj h
  refine ⟨?_, fun mem => same ?_, by simpa using List.find?_some free⟩
  · rw [← inFlight_tags, List.length_map]; omega
  · rw [← inFlight_tags] at mem
    obtain ⟨x, hx, e⟩ := List.mem_map.mp mem
    exact List.any_eq_true.mpr ⟨x, hx, by simpa using e⟩

/-- An accepted frame's context is one more in flight for its drop, under a tag of its own. -/
theorem inFlight_accepted {i : LaneId} {d : DropId} {kind tag : Octet} {payload : List Octet} {c : CtxId}
    {req : Request} {s : State} (h : InFlight s) (ok : acceptance i d kind tag payload s = .ok (c, req)) :
    InFlight (s.setCtx c ⟨(s.ctx c).gen + 1, some (newTxn i d tag req)⟩) := by
  obtain ⟨few, fresh, free⟩ := acceptance_ok ok
  rw [inFlight_iff] at h ⊢
  intro j e
  obtain ⟨bound, once⟩ := h j e
  generalize new : s.setCtx c ⟨(s.ctx c).gen + 1, some (newTxn i d tag req)⟩ = t
  have others : ∀ c', c' ≠ c → tagAt t j e c' = tagAt s j e c' := fun c' ne => by
    rw [tagAt, ← new, State.txn_setCtx_ne s _ ne.symm]; rfl
  have own : tagAt t j e c = if i = j ∧ d = e then some tag else none := by
    rw [tagAt, ← new, State.txn_setCtx]; rfl
  by_cases same : i = j ∧ d = e
  · obtain ⟨rfl, rfl⟩ := same
    have perm : (tagsOf t i d).Perm (tag :: tagsOf s i d) :=
      filterMap_insert (tagAt_of_free i d free) (by simpa using own) others allContexts
        (mem_allContexts c) (by decide)
    rw [perm.length_eq, perm.nodup_iff, List.nodup_cons]
    exact ⟨by simp only [List.length_cons]; omega, fresh, once⟩
  · have same : tagsOf t j e = tagsOf s j e := List.filterMap_congr fun c' _ => by
      by_cases eq : c' = c
      · subst eq; rw [own, if_neg same, tagAt_of_free j e free]
      · exact others c' eq
    rw [same]
    exact ⟨bound, once⟩

theorem laneKept_true : LaneKept fun _ => True := by constructor <;> intros <;> trivial

theorem inFlight_lanewise : Lanewise (fun _ => True) InFlight where
  lane _ _ _ := trivial
  setLane _ _ _ h _ := inFlight_sameHands h (.of_same rfl)
  follows _ _ h f := inFlight_sameHands h f.hands
  accepted _ _ _ _ _ _ _ _ h ok := inFlight_accepted h ok
  cleared _ h := inFlight_sameHands h (.of_same rfl)
  reset _ _ _ s h := inFlight_sameHands h fun c x hx => by
    simp [State.txn, State.ctx, resetAll, State.afterReset, Dct.reset] at hx

/-- Settles O57: each bound is kept by the operations of a lane, by every offer of a reply and by acceptance, and the
events of transactions do no more than that to lanes and hands. -/
theorem laneBoundsKept : Obligations.LaneBoundsKept :=
  ⟨fun s t => (Lanewise.keeps replyBounds_kept replyBounds_kept.lanewise).step s t,
    fun s t => (Lanewise.keeps laneShape_kept laneShape_kept.lanewise).step s t,
    fun s t => (Lanewise.keeps laneKept_true inFlight_lanewise).step s t⟩

end Sys2Proof.KioskLanes

namespace Sys2Proof.KioskLanes

open Sys2Proof Sys2Proof.Machine Sys2Proof.Safety

/-! ## A MGMT frame that UM takes (R185) -/

/-- UM carries out a MGMT frame's command once the frame is counted. -/
theorem live_arriveMgmt {s : State} (h : Manageable s) {i : Instr} {payload : List Octet} (f : State → State)
    (e : encodeFrame i = some (0x26, 0, payload)) (short : 2 ≤ payload.length) (long : payload.length ≤ 480) :
    live (arriveMgmt i f) s = f (counted s) := by
  obtain ⟨listening, room⟩ := h
  have owed : ¬ 16 ≤ repliesOwed (counted s) := by rw [show repliesOwed (counted s) = repliesOwed s from rfl]; omega
  have accepted : payloadAccepted 0x26 payload.length = some true := congrArg some (decide_eq_true ⟨short, long⟩)
  rw [live, if_pos listening.1, arriveMgmt, arrive_listening i _ s listening e long accepted, takeMgmt, if_neg owed]

theorem exec_setLane {s : State} (h : Manageable s) (seq lane mode rate : Octet) :
    exec (.setLane seq lane mode rate) s = .next (manageSetLane seq lane mode rate (counted s)) :=
  congrArg Host.Outcome.next (live_arriveMgmt h _ rfl (Nat.le_of_ble_eq_true rfl) (Nat.le_of_ble_eq_true rfl))

theorem exec_setDrop {s : State} (h : Manageable s) (seq lane drop enrolment : Octet) :
    exec (.setDrop seq lane drop enrolment) s = .next (manageSetDrop seq lane drop enrolment (counted s)) :=
  congrArg Host.Outcome.next (live_arriveMgmt h _ rfl (Nat.le_of_ble_eq_true rfl) (Nat.le_of_ble_eq_true rfl))

@[simp] theorem lane_counted (s : State) (i : LaneId) : (counted s).lane i = s.lane i := rfl

/-! ## The operands of SET_LANE and SET_DROP (R186) -/

theorem laneOf_some {o : Octet} {i : LaneId} (h : o.toNat = i.val) : laneOf o = some i := by
  simp [laneOf, h]

theorem laneOf_none {o : Octet} (h : 4 ≤ o.toNat) : laneOf o = none := by simp [laneOf, h]

theorem rateOf_some {o : Octet} {r : Fin 5} (h : o.toNat = r.val) : rateOf o = some r := by
  simp [rateOf, h]

theorem rateOf_none {o : Octet} (h : 5 ≤ o.toNat) : rateOf o = none := by simp [rateOf, h]

theorem dropOf_some {o : Octet} {d : DropId} (h : o.toNat = d.val + 1) : dropOf o = some d := by
  simp [dropOf, h]

theorem dropOf_none {o : Octet} (h : o.toNat = 0 ∨ 9 ≤ o.toNat) : dropOf o = none := by
  have range : ¬ (1 ≤ o.toNat ∧ o.toNat ≤ 8) := by omega
  simp [dropOf, range]

theorem enrolmentOf_none {o : Octet} (h : 3 ≤ o.toNat) : enrolmentOf o = none := by
  have h0 : o ≠ 0 := by rintro rfl; simp at h
  have h1 : o ≠ 1 := by rintro rfl; simp at h
  have h2 : o ≠ 2 := by rintro rfl; simp at h
  rw [enrolmentOf, if_neg h0, if_neg h1, if_neg h2]

theorem enrolmentOf_some {o : Octet} {e : Enrolment}
    (h : o = 0 ∧ e = .off ∨ o = 1 ∧ e = .served ∨ o = 2 ∧ e = .relayed) : enrolmentOf o = some e := by
  rcases h with ⟨rfl, rfl⟩ | ⟨rfl, rfl⟩ | ⟨rfl, rfl⟩ <;> rfl

/-- An operand out of range is refused without effect (R186). -/
theorem manageSetLane_refused {lane mode rate : Octet} (h : 4 ≤ lane.toNat ∨ 2 ≤ mode.toNat ∨ 5 ≤ rate.toNat)
    (seq : Octet) (s : State) : manageSetLane seq lane mode rate s = answer seq setLaneCode .badValue [] s := by
  unfold manageSetLane
  rcases h with h | h | h
  · rw [laneOf_none h]
  · have h0 : mode ≠ 0 := by rintro rfl; simp at h
    have h1 : mode ≠ 1 := by rintro rfl; simp at h
    split
    · rw [if_neg h0, if_neg h1]
    · rfl
  · rw [rateOf_none h]; split
    · next r => cases r
    · rfl

theorem manageSetLane_isolate {lane rate : Octet} {i : LaneId} {r : Fin 5} (hl : lane.toNat = i.val)
    (hr : rate.toNat = r.val) (seq : Octet) (s : State) :
    manageSetLane seq lane 0 rate s = answer seq setLaneCode .done [] (takeSetLane i false r s) := by
  simp [manageSetLane, laneOf_some hl, rateOf_some hr]

theorem manageSetLane_serve {lane rate : Octet} {i : LaneId} {r : Fin 5} (hl : lane.toNat = i.val)
    (hr : rate.toNat = r.val) (seq : Octet) (s : State) :
    manageSetLane seq lane 1 rate s = answer seq setLaneCode .done [] (takeSetLane i true r s) := by
  simp [manageSetLane, laneOf_some hl, rateOf_some hr]

theorem manageSetDrop_refused {lane drop enrolment : Octet}
    (h : 4 ≤ lane.toNat ∨ drop.toNat = 0 ∨ 9 ≤ drop.toNat ∨ 3 ≤ enrolment.toNat) (seq : Octet) (s : State) :
    manageSetDrop seq lane drop enrolment s = answer seq setDropCode .badValue [] s := by
  unfold manageSetDrop
  split
  · next i d e hi hd he =>
    rcases h with h | h | h | h
    · rw [laneOf_none h] at hi; cases hi
    · rw [dropOf_none (.inl h)] at hd; cases hd
    · rw [dropOf_none (.inr h)] at hd; cases hd
    · rw [enrolmentOf_none h] at he; cases he
  · rfl

theorem manageSetDrop_taken {lane drop enrolment : Octet} {i : LaneId} {d : DropId} {e : Enrolment}
    (hl : lane.toNat = i.val) (hd : drop.toNat = d.val + 1)
    (he : enrolment = 0 ∧ e = .off ∨ enrolment = 1 ∧ e = .served ∨ enrolment = 2 ∧ e = .relayed) (seq : Octet)
    (s : State) :
    manageSetDrop seq lane drop enrolment s = answer seq setDropCode .done [] (takeSetDrop i d e s) := by
  simp [manageSetDrop, laneOf_some hl, dropOf_some hd, enrolmentOf_some he]

/-! ## SET_LANE as the lane takes it (R4) -/

section
variable {s : State} {i : LaneId} (r : Fin 5)

theorem takeSetLane_rate (h : (s.lane i).mode = .isolated) :
    takeSetLane i false r s = s.setLane i { s.lane i with rate := r } := by
  simp [takeSetLane, h, State.mapLane]

theorem takeSetLane_start (h : (s.lane i).mode = .isolated) :
    takeSetLane i true r s = s.setLane i ({ s.lane i with rate := r } : Lane).enterStarting := by
  simp [takeSetLane, h, State.mapLane]

theorem takeSetLane_same (h : (s.lane i).mode ≠ .isolated) (rate : (s.lane i).rate = r) :
    takeSetLane i true r s = s := by
  unfold takeSetLane
  split
  · next mode _ => exact absurd mode h
  · next mode _ => exact absurd mode h
  · next serve _ => cases serve
  · rw [if_pos rate]

theorem takeSetLane_isolate (h : (s.lane i).mode ≠ .isolated) : takeSetLane i false r s =
    laneAbort i (fun l => ({ l with rate := r } : Lane).enterIsolated) s := by
  unfold takeSetLane
  split
  · next mode _ => exact absurd mode h
  · next mode _ => exact absurd mode h
  · rfl
  · next serve _ => cases serve

theorem takeSetLane_restart (h : (s.lane i).mode ≠ .isolated) (rate : (s.lane i).rate ≠ r) : takeSetLane i true r s =
    laneAbort i (fun l => ({ l with rate := r } : Lane).enterStarting) s := by
  unfold takeSetLane
  split
  · next mode _ => exact absurd mode h
  · next mode _ => exact absurd mode h
  · next serve _ => cases serve
  · rw [if_neg rate]

end

/-- Settles O5: the refusals, and the rows of R4 that abort nothing. -/
theorem setLaneWithoutAbort : Obligations.SetLaneWithoutAbort := by
  intro s seq lane mode rate h
  simp only [exec_setLane h]
  refine ⟨fun bad => by rw [manageSetLane_refused bad]; rfl, fun i r hl hr => ⟨?_, ?_, ?_⟩⟩
  · rintro isolated rfl
    rw [manageSetLane_isolate hl hr, takeSetLane_rate (s := counted s) r isolated]; rfl
  · rintro isolated rfl
    rw [manageSetLane_serve hl hr, takeSetLane_start (s := counted s) r isolated]; rfl
  · rintro mode rfl same
    rw [manageSetLane_serve hl hr, takeSetLane_same (s := counted s) r mode same]; rfl

end Sys2Proof.KioskLanes

namespace Sys2Proof.KioskLanes

open Sys2Proof Sys2Proof.Machine Sys2Proof.Safety

/-! ## The lowest drop that meets a test -/

theorem mem_allDrops (d : DropId) : d ∈ allDrops := by revert d; decide

theorem cut_allDrops (d : DropId) : allDrops = allDrops.take d ++ d :: allDrops.drop (d + 1) ∧
    ∀ a ∈ allDrops.take d, a < d := by revert d; decide

theorem find_allDrops {p : DropId → Bool} {d : DropId} (h : p d = true) (lowest : ∀ d', d' < d → p d' = false) :
    allDrops.find? p = some d := by
  obtain ⟨cut, below⟩ := cut_allDrops d
  exact List.find?_eq_some_iff_append.mpr ⟨h, _, _, cut, fun a ha => by simp [lowest a (below a ha)]⟩

theorem qualifies_iff (l : Lane) (d : DropId) : l.qualifies d = true ↔ Qualifies l d := by
  simp [Lane.qualifies, Qualifies, dropNumber, DropRecord.enrolled, and_assoc]

theorem nextDrop_some {l : Lane} {d : DropId} (h : Qualifies l d) (lowest : ∀ d', d' < d → ¬ Qualifies l d') :
    l.nextDrop = some d :=
  find_allDrops ((qualifies_iff l d).mpr h) fun d' lt => by
    simpa [← qualifies_iff] using lowest d' lt

theorem nextDrop_none {l : Lane} (h : ∀ d, ¬ Qualifies l d) : l.nextDrop = none :=
  List.find?_eq_none.mpr fun d _ q => h d ((qualifies_iff l d).mp q)

theorem anyEnrolled_true {l : Lane} {d : DropId} (h : (l.dropRec d).enrolment ≠ .off) : l.anyEnrolled = true :=
  List.any_eq_true.mpr ⟨d, mem_allDrops d, by simpa [DropRecord.enrolled] using h⟩

theorem anyEnrolled_false {l : Lane} (h : ∀ d, (l.dropRec d).enrolment = .off) : l.anyEnrolled = false :=
  List.any_eq_false.mpr fun d _ => by simp [DropRecord.enrolled, h d]

/-! ## The next turn (R11, R12) -/

theorem startTurn_eq_visiting (l : Lane) (d : DropId) : l.startTurn d = visiting l d := rfl

/-- The lowest drop that qualifies is visited. -/
theorem nextTurn_visits {l : Lane} {d : DropId} (n : Nat) (h : Qualifies l d)
    (lowest : ∀ d', d' < d → ¬ Qualifies l d') : Lane.nextTurn (n + 1) l = visiting l d := by
  simp only [Lane.nextTurn, nextDrop_some h lowest, startTurn_eq_visiting]

/-- With no drop enrolled the round ends and the lane goes idle. -/
theorem nextTurn_idle {l : Lane} (n : Nat) (off : ∀ d, (l.dropRec d).enrolment = .off) :
    Lane.nextTurn (n + 1) l = { l with round := l.round + 1, lastVisited := 0, idle := true } := by
  have none : l.nextDrop = none := nextDrop_none fun d q => q.2.1 (off d)
  simp [Lane.nextTurn, none, anyEnrolled_false off, Lane.endRound]

/-- With no drop that qualifies, and one enrolled, the next turn is that of the next round. -/
theorem nextTurn_nextRound {l : Lane} {d : DropId} (n : Nat) (none : ∀ d, ¬ Qualifies l d)
    (enrolled : (l.dropRec d).enrolment ≠ .off) : Lane.nextTurn (n + 1) l = Lane.nextTurn n l.endRound := by
  simp only [Lane.nextTurn, nextDrop_none none, anyEnrolled_true enrolled, if_true]

/-- At the start of the round with counter 0 the lowest enrolled drop is visited. -/
theorem nextTurn_roundZero {l : Lane} {d : DropId} (n : Nat) (round : l.round = 0) (fresh : l.lastVisited = 0)
    (enrolled : (l.dropRec d).enrolment ≠ .off) (lowest : ∀ d', d' < d → (l.dropRec d').enrolment = .off) :
    Lane.nextTurn (n + 1) l = visiting { l with round := 0 } d := by
  rw [nextTurn_visits n ⟨by omega, enrolled, .inr round⟩ fun d' lt q => q.2.1 (lowest d' lt), ← round]

/-- With every enrolled drop ABSENT the rounds up to the one with counter 0 visit none, and that one visits the lowest
enrolled drop. -/
theorem nextTurn_allAbsent {d : DropId} (n : Nat) (l : Lane) (rounds : (8 - l.round.val) % 8 < n)
    (fresh : l.lastVisited = 0) (enrolled : (l.dropRec d).enrolment ≠ .off)
    (lowest : ∀ d', d' < d → (l.dropRec d').enrolment = .off)
    (absent : ∀ d', (l.dropRec d').enrolment ≠ .off → (l.dropRec d').presence = .absent) :
    Lane.nextTurn n l = visiting { l with round := 0 } d := by
  induction n generalizing l with
  | zero => omega
  | succ n ih =>
    by_cases round : l.round = 0
    · exact nextTurn_roundZero n round fresh enrolled lowest
    · have none : ∀ d', ¬ Qualifies l d' := fun d' ⟨_, on, present⟩ => by
        simp [absent d' on, round] at present
      have nonzero : l.round.val ≠ 0 := fun e => round (Fin.ext e)
      have next : l.endRound.round.val = (l.round.val + 1) % 8 := Fin.val_add l.round 1
      rw [nextTurn_nextRound n none enrolled]
      exact ih l.endRound (by omega) rfl enrolled lowest absent

/-! ## TURN_START, GAP_END, BREAK_END -/

theorem live_powered {s : State} (h : s.powered = true) (f : State → State) : live f s = f s := by
  rw [live, if_pos h]

theorem exec_turnStart {s : State} {i : LaneId} (h : s.powered = true) (serve : (s.lane i).mode = .serve)
    (turn : (s.lane i).turn = none) (busy : (s.lane i).idle = false) :
    exec (.turnStart i) s = .next (s.setLane i (Lane.nextTurn roundBound (s.lane i))) := by
  refine congrArg Host.Outcome.next ?_
  rw [live_powered h, State.mapLane, Lane.turnStart, if_pos ⟨serve, turn, busy⟩]

/-- Settles O10: the next turn by what qualifies in the round under way, in the next, or in the round with counter 0. -/
theorem turnVisitsLowestQualifyingDrop : Obligations.TurnVisitsLowestQualifyingDrop := by
  refine ⟨fun d => ⟨rfl, fun r => rfl⟩, fun s i power serve turn busy => ?_⟩
  rw [exec_turnStart power serve turn busy]
  refine ⟨fun d q lowest => by rw [roundBound, nextTurn_visits 8 q lowest], fun none => ⟨fun off => ?_, ?_, ?_⟩⟩
  · rw [roundBound, nextTurn_idle 8 off]
  · intro d round enrolled present lowest
    have visits := nextTurn_visits (l := (s.lane i).endRound) (d := d) 7
      ⟨Nat.succ_pos _, enrolled, .inl present⟩ fun d' lt ⟨_, on, present⟩ => by
        rcases lowest d' lt with off | absent
        · exact on off
        · rcases present with p | p
          · exact absurd (absent.symm.trans p) nofun
          · exact round p
    rw [roundBound, nextTurn_nextRound 8 none enrolled, visits]; rfl
  · intro d enrolled lowest rounds
    rw [roundBound, nextTurn_nextRound 8 none enrolled]
    rcases rounds with zero | absent
    · rw [nextTurn_roundZero (l := (s.lane i).endRound) (d := d) 7 zero rfl enrolled lowest]; rfl
    · rw [nextTurn_allAbsent (d := d) 8 (s.lane i).endRound (by omega) rfl enrolled lowest absent]; rfl

theorem exec_gapEnd {s : State} {i : LaneId} (h : s.powered = true) (gap : (s.lane i).mode = .starting .gap) :
    exec (.gapEnd i) s = .next (s.setLane i (Lane.nextTurn roundBound { s.lane i with mode := .serve })) := by
  refine congrArg Host.Outcome.next ?_
  rw [live_powered h, State.mapLane, Lane.gapEnd, if_pos gap]

/-- The pins of a lane by its mode (R2, R3, R7). -/
theorem lane_pins (l : Lane) :
    (l.mode = .isolated → l.lde = false ∧ l.ltxHeldLow = false) ∧
    (l.mode = .starting .breaking → l.lde = true ∧ l.ltxHeldLow = true) ∧
    (l.mode = .starting .gap → l.lde = false ∧ l.ltxHeldLow = false) ∧
    (l.mode = .serve → l.ltxHeldLow = false ∧ (l.lde = true ↔ ∃ d cs, l.turn = some ⟨d, .transmitting cs⟩)) := by
  refine ⟨fun h => ?_, fun h => ?_, fun h => ?_, fun h => ⟨?_, ?_⟩⟩
  · simp [Lane.lde, Lane.ltxHeldLow, h]
  · simp [Lane.lde, Lane.ltxHeldLow, h]
  · simp [Lane.lde, Lane.ltxHeldLow, h]
  · simp [Lane.ltxHeldLow, h]
  · simp only [Lane.lde, h]
    constructor
    · intro asserted
      split at asserted
      · next d cs turn => exact ⟨d, cs, turn⟩
      · cases asserted
    · rintro ⟨d, cs, turn⟩
      rw [turn]

/-- Settles O9: the pins, and the two events of STARTING, the first turn being that of round 0. -/
theorem breakThenGapThenServe : Obligations.BreakThenGapThenServe := by
  refine ⟨lane_pins, fun s i power => ⟨fun breaking => ?_, fun gap round fresh => ⟨?_, ?_⟩⟩⟩
  · refine congrArg Host.Outcome.next ?_
    rw [live_powered power, State.mapLane, Lane.breakEnd, if_pos breaking]
  · intro d enrolled lowest
    rw [exec_gapEnd power gap, roundBound,
      nextTurn_roundZero (l := { s.lane i with mode := .serve }) 8 round fresh enrolled lowest, ← round]
  · intro off
    rw [exec_gapEnd power gap, roundBound, nextTurn_idle (l := { s.lane i with mode := .serve }) 8 off, round]; rfl

/-! ## SET_DROP as the lane takes it (R10) -/

@[simp] theorem dropRec_setDropRec (l : Lane) (d : DropId) (r : DropRecord) : (l.setDropRec d r).dropRec d = r := by
  simp [Lane.dropRec, Lane.setDropRec]

theorem dropRec_setDropRec_ne (l : Lane) {d e : DropId} (r : DropRecord) (h : d ≠ e) :
    (l.setDropRec d r).dropRec e = l.dropRec e := by
  have : d.val ≠ e.val := fun eq => h (Fin.ext eq)
  simp [Lane.dropRec, Lane.setDropRec, this]

section
variable {s : State} {i : LaneId} {d : DropId} {e : Enrolment}

theorem takeSetDrop_same (h : ((s.lane i).dropRec d).enrolment = e) : takeSetDrop i d e s = s := by
  unfold takeSetDrop; dsimp only; rw [if_pos h.symm]

theorem takeSetDrop_busy (h : ((s.lane i).dropRec d).enrolment ≠ e) (on : e ≠ .off) (busy : (s.lane i).idle = false) :
    takeSetDrop i d e s =
      s.setLane i ((s.lane i).setDropRec d { (s.lane i).dropRec d with enrolment := e }) := by
  unfold takeSetDrop; dsimp only
  rw [if_neg (Ne.symm h), if_neg on, if_neg (by simp [Lane.setDropRec, busy])]

theorem takeSetDrop_idle (h : ((s.lane i).dropRec d).enrolment ≠ e) (on : e ≠ .off) (idle : (s.lane i).idle = true) :
    takeSetDrop i d e s = s.setLane i (Lane.nextTurn roundBound
      { (s.lane i).setDropRec d { (s.lane i).dropRec d with enrolment := e } with idle := false }) := by
  unfold takeSetDrop; dsimp only
  rw [if_neg (Ne.symm h), if_neg on, if_pos (by simpa [Lane.setDropRec] using idle)]

end

/-- Settles O7: the refusals, and the changes of enrolment that abort nothing; the drop enrolled on an idle lane is the
only one that can be visited. -/
theorem setDropWithoutAbort : Obligations.SetDropWithoutAbort := by
  intro s seq lane drop enrolment h
  refine ⟨fun bad => by rw [exec_setDrop h, manageSetDrop_refused bad]; rfl, fun i d e hl hd he => ?_⟩
  have taken : exec (.setDrop seq lane drop enrolment) s =
      .next (answer seq setDropCode .done [] (takeSetDrop i d e (counted s))) := by
    rw [exec_setDrop h, manageSetDrop_taken hl hd he]
  refine ⟨fun same => ?_, fun change on busy => ?_, fun off on idle fresh alone => ?_⟩
  · rw [taken, takeSetDrop_same (s := counted s) same]; rfl
  · rw [taken, takeSetDrop_busy (s := counted s) change on busy]; rfl
  intro l
  rw [taken, takeSetDrop_idle (s := counted s) (by rw [lane_counted, off]; exact on.symm) on idle, lane_counted]
  have record : l.dropRec d = { (s.lane i).dropRec d with enrolment := e } := dropRec_setDropRec _ _ _
  have enrolled : (l.dropRec d).enrolment ≠ .off := by rw [record]; exact on
  have others : ∀ d', d' ≠ d → (l.dropRec d').enrolment = .off := fun d' ne => by
    rw [dropRec_setDropRec_ne _ _ ne.symm]; exact alone d'
  have lowest : ∀ d', d' < d → (l.dropRec d').enrolment = .off := fun d' lt => others d' (ne_of_lt lt)
  refine ⟨fun visible => ?_, fun absent => ?_⟩
  · have visits := nextTurn_visits (l := { l with idle := false }) (d := d) 8
      ⟨fresh ▸ Nat.succ_pos _, enrolled, visible.imp_left fun present => record ▸ present⟩
      fun d' lt q => q.2.1 (lowest d' lt)
    rw [roundBound, visits]; rfl
  · have visits := nextTurn_allAbsent (d := d) 9 { l with idle := false } (by omega) fresh enrolled lowest
      fun d' on' => by
        by_cases same : d' = d
        · subst same; exact record ▸ absent
        · exact absurd (others d' same) on'
    rw [roundBound, visits]; rfl

end Sys2Proof.KioskLanes

namespace Sys2Proof.KioskLanes

open Sys2Proof Sys2Proof.Machine Sys2Proof.Safety

/-! ## The events of a running turn (R12, R13, R15, R16) -/

theorem mapLane_self {s : State} {i : LaneId} {f : Lane → Lane} (h : f (s.lane i) = s.lane i) : s.mapLane i f = s := by
  rw [State.mapLane, h, setLane_lane]

theorem windowOut_held {l : Lane} (h : l.held ≠ .none) : l.windowOut = l := by
  unfold Lane.windowOut; split
  · next none => exact absurd none h
  · rfl

theorem frameGapOut_held {l : Lane} (h : l.held ≠ .none) : l.frameGapOut = l := by
  unfold Lane.frameGapOut; split
  · next none => exact absurd none h
  · rfl

theorem miss_eq (r : DropRecord) : r.miss = { r with
    misses := if r.misses = 3 then 3 else r.misses + 1
    presence := if 2 ≤ r.misses.val then .absent else r.presence } := by
  have third : (if r.misses = 3 then 3 else r.misses + 1) = 3 ↔ 2 ≤ r.misses.val := by
    generalize r.misses = n; revert n; decide
  unfold DropRecord.miss; simp only [third]

/-- Settles O11: each event by its phase, and the held character that stops the window and the gap. -/
theorem turnEvents : Obligations.TurnEvents := by
  intro s i d power serve
  have event : ∀ f : Lane → Lane, live (·.mapLane i f) s = s.setLane i (f (s.lane i)) := fun f => live_powered power _
  refine ⟨fun cs turn => ?_, fun turn held => ?_, fun held => ⟨?_, ?_⟩, fun turn held => ?_, fun turn => ?_⟩
  · refine congrArg Host.Outcome.next ((event _).trans ?_)
    simp only [Lane.transmitEnd, serve, turn]
  · refine congrArg Host.Outcome.next ((event _).trans ?_)
    simp only [Lane.windowOut, turn, held, miss_eq]; rfl
  · refine congrArg Host.Outcome.next ((event _).trans ?_)
    rw [windowOut_held held, setLane_lane]
  · refine congrArg Host.Outcome.next ((event _).trans ?_)
    rw [frameGapOut_held held, setLane_lane]
  · refine congrArg Host.Outcome.next ((event _).trans ?_)
    simp only [Lane.frameGapOut, turn, held, Lane.endTurn, Lane.count]
  · refine congrArg Host.Outcome.next ((event _).trans ?_)
    simp only [Lane.quietEnd, turn]; rfl

/-! ## What a lane does with a received character (R8, R9, R18) -/

theorem receiving_iff (l : Lane) :
    l.receiving = true ↔ l.mode = .serve ∧ ∀ d cs, l.turn ≠ some ⟨d, .transmitting cs⟩ := by
  unfold Lane.receiving
  simp only [Bool.and_eq_true, decide_eq_true_eq, Bool.not_eq_true']
  refine and_congr_right fun serve => ?_
  obtain ⟨-, -, -, pins⟩ := lane_pins l
  rw [← Bool.not_eq_true, (pins serve).2]
  push Not; rfl

/-- A lane that is ISOLATED or STARTING or transmits does not receive (R2, R3, R9). -/
theorem receiving_false {l : Lane} (h : l.mode ≠ .serve ∨ ∃ d cs, l.turn = some ⟨d, .transmitting cs⟩) :
    l.receiving = false := by
  rw [← Bool.not_eq_true, receiving_iff]
  rintro ⟨serve, quiet⟩
  rcases h with h | ⟨d, cs, turn⟩
  · exact h serve
  · exact quiet d cs turn

theorem heldStands_none {l : Lane} (h : l.held = .none) : l.heldStands = l := by simp [Lane.heldStands, h]

@[simp] theorem held_badCharacter (l : Lane) : l.badCharacter.held = l.held := by
  unfold Lane.badCharacter; split <;> rfl

@[simp] theorem held_heldStands (l : Lane) : l.heldStands.held = .none := by
  unfold Lane.heldStands; split
  · assumption
  · simp
  · rfl

theorem receiving_badCharacter {l : Lane} (h : l.receiving = true) : l.badCharacter.receiving = true := by
  rw [receiving_iff] at h ⊢
  unfold Lane.badCharacter; split
  · exact ⟨h.1, nofun⟩
  · exact ⟨h.1, nofun⟩
  · exact h

theorem receiving_heldStands {l : Lane} (h : l.receiving = true) : l.heldStands.receiving = true := by
  unfold Lane.heldStands; split
  · exact h
  · exact receiving_badCharacter (l := { l with held := .none }) h
  · exact h

/-- What a lane receives while it does not receive has no effect. -/
theorem takeCharacter_deaf {s : State} {i : LaneId} (x : Samples) (h : (s.lane i).receiving = false) :
    takeCharacter i x s = s := by rw [takeCharacter, h]; rfl

theorem takeCharacter_falseStart {s : State} {i : LaneId} {x : Samples} (h : receive x = .falseStart) :
    takeCharacter i x s = s := by unfold takeCharacter; rw [h]; split <;> rfl

section
variable {s : State} {i : LaneId} {x : Samples} (receiving : (s.lane i).receiving = true)
  (held : (s.lane i).held = .none)
include receiving held

/-- With no character held a character with stop bit 0 is held, by its phase. -/
theorem takeCharacter_held (h : receive x = .held) : takeCharacter i x s =
    s.setLane i { s.lane i with held := if (s.lane i).takesCharacters then .counted else .ignored } := by
  simp only [takeCharacter, receiving, h, mapLane_self (heldStands_none held), if_true]

theorem takeCharacter_bad (h : receive x = .bad) : takeCharacter i x s = s.setLane i (s.lane i).badCharacter := by
  simp only [takeCharacter, receiving, h, mapLane_self (heldStands_none held), if_true]

theorem takeCharacter_first {d : DropId} {c : LaneChar} (h : receive x = .good c)
    (turn : (s.lane i).turn = some ⟨d, .window⟩) :
    takeCharacter i x s = s.setLane i ((s.lane i).firstCharacter d c) := by
  simp only [takeCharacter, receiving, h, mapLane_self (heldStands_none held), turn, if_true]

theorem takeCharacter_assemble {d : DropId} {c : LaneChar} (h : receive x = .good c)
    (turn : (s.lane i).turn = some ⟨d, .assembly⟩) : takeCharacter i x s = assembleCharacter i d c s := by
  simp only [takeCharacter, receiving, h, mapLane_self (heldStands_none held), turn, if_true]

/-- Between turns and in the quiet wait characters are ignored (R9, R15). -/
theorem takeCharacter_ignored (h : (∃ c, receive x = .good c) ∨ receive x = .bad)
    (turn : (s.lane i).turn = none ∨ ∃ d, (s.lane i).turn = some ⟨d, .quietWait⟩) : takeCharacter i x s = s := by
  rcases h with ⟨c, h⟩ | h
  · rcases turn with turn | ⟨d, turn⟩ <;>
      simp only [takeCharacter, receiving, h, mapLane_self (heldStands_none held), turn, if_true]
  · rw [takeCharacter_bad receiving held h]
    rcases turn with turn | ⟨d, turn⟩ <;> simp only [Lane.badCharacter, turn, setLane_lane]

end

/-- The held character stands before a further one is taken (R18, log entry 11). -/
theorem takeCharacter_mapLane_heldStands {s : State} {i : LaneId} (x : Samples)
    (receiving : (s.lane i).receiving = true) (h : receive x ≠ .falseStart) : takeCharacter i x (s.mapLane i Lane.heldStands) = takeCharacter i x s := by
  have twice : (s.mapLane i Lane.heldStands).mapLane i Lane.heldStands = s.mapLane i Lane.heldStands :=
    mapLane_self (by rw [State.lane_mapLane, heldStands_none (held_heldStands _)])
  have receiving' : ((s.mapLane i Lane.heldStands).lane i).receiving = true := by
    rw [State.lane_mapLane]; exact receiving_heldStands receiving
  cases r : receive x with
  | falseStart => exact absurd r h
  | held | bad | good => simp only [takeCharacter, receiving, receiving', r, twice, if_true]

/-! ## Frame assembly (R14, R15) -/

section
variable {s : State} {i : LaneId} {d : DropId} {c : LaneChar}

theorem assembleCharacter_address (mark : c.mark = true) :
    assembleCharacter i d c s = s.setLane i ((s.lane i).discard d .addressErrors) := by
  simp only [assembleCharacter, mark, if_true]

theorem assembleCharacter_length (mark : c.mark = false) (one : (s.lane i).assembly.length = 1) :
    assembleCharacter i d c s = if bodyLengthOk c.data.toNat then
        s.setLane i { s.lane i with assembly := (s.lane i).assembly ++ [c] }
      else s.setLane i ((s.lane i).discard d .truncated) := by
  simp only [assembleCharacter, mark, one, Bool.false_eq_true, if_false]; rfl

theorem assembleCharacter_body (mark : c.mark = false) (long : 2 ≤ (s.lane i).assembly.length) :
    assembleCharacter i d c s =
      if (s.lane i).assembly.length + 1 = 2 + (s.lane i).bodyLength then
        completeFrame i d ((s.lane i).assembly ++ [c]) s
      else s.setLane i { s.lane i with assembly := (s.lane i).assembly ++ [c] } := by
  have notShort : ¬ (s.lane i).assembly.length < 2 := by omega
  simp only [assembleCharacter, mark, notShort, Bool.false_eq_true, if_false, List.length_append,
    List.length_singleton]

/-- A complete frame from an enrolled drop is counted and handed to dispatch (R14). -/
theorem completeFrame_enrolled {buffer : List LaneChar} (on : ((s.lane i).dropRec d).enrolment ≠ .off) :
    completeFrame i d buffer s = dispatch i d ((buffer.drop 2).map LaneChar.data) (s.setLane i
      { s.lane i with turn := none, assembly := [], counters := (s.lane i).counters.advance .framesTaken }) :=
  if_pos (c := ((s.lane i).dropRec d).enrolled = true) (decide_eq_true on)

/-- A complete frame from a drop turned OFF is discarded uncounted (R14). -/
theorem completeFrame_off {buffer : List LaneChar} (off : ((s.lane i).dropRec d).enrolment = .off) :
    completeFrame i d buffer s = s.setLane i { s.lane i with turn := none, assembly := [] } :=
  if_neg (c := ((s.lane i).dropRec d).enrolled = true) fun on => of_decide_eq_true on off

end

theorem exec_laneCharacter {s : State} (h : s.powered = true) (i : LaneId) (x : Samples) :
    exec (.laneCharacter i x) s = .next (takeCharacter i x s) := congrArg Host.Outcome.next (live_powered h _)

theorem receiving_inTurn {l : Lane} {d : DropId} {p : TurnPhase} (serve : l.mode = .serve)
    (turn : l.turn = some ⟨d, p⟩) (silent : ∀ cs, p ≠ .transmitting cs) : l.receiving = true := by
  refine (receiving_iff l).mpr ⟨serve, fun e cs eq => ?_⟩
  rw [turn] at eq
  injection eq with eq; injection eq with _ eq
  exact silent cs eq

theorem receiving_offTurn {l : Lane} (serve : l.mode = .serve) (turn : l.turn = none) : l.receiving = true :=
  (receiving_iff l).mpr ⟨serve, fun d cs eq => by rw [turn] at eq; cases eq⟩

theorem addressChar_ne_nilChar (d : DropId) : addressChar d ≠ nilChar d := by revert d; decide

/-- Settles O13: the answer window's first character, frame assembly, and the phases in which characters are ignored. -/
theorem turnCharacters : Obligations.TurnCharacters := by
  refine ⟨fun d => ⟨rfl, rfl⟩, ?_, fun s i x deaf => ?_⟩
  · rintro s i d x l power rfl serve held
    rw [exec_laneCharacter power]
    refine ⟨fun turn => ?_, fun turn => ?_, fun turn ignored => ?_⟩
    · have receiving := receiving_inTurn serve turn nofun
      refine ⟨fun c good => ?_, fun bad => ?_, fun start => by rw [takeCharacter_falseStart start]⟩
      · rw [takeCharacter_first receiving held good turn]
        refine ⟨?_, ?_, fun other notNil => ?_⟩
        · rintro rfl
          simp only [Lane.firstCharacter, if_true]; rfl
        · rintro rfl
          simp only [Lane.firstCharacter, (addressChar_ne_nilChar d).symm, if_true, if_false]; rfl
        · simp only [Lane.firstCharacter, other, notNil, if_false]; rfl
      · rw [takeCharacter_bad receiving held bad]
        simp only [Lane.badCharacter, turn]; rfl
    · have receiving := receiving_inTurn serve turn nofun
      refine ⟨fun bad => ?_, fun c good => ?_⟩
      · rw [takeCharacter_bad receiving held bad]
        simp only [Lane.badCharacter, turn]; rfl
      · rw [takeCharacter_assemble receiving held good turn]
        refine ⟨fun mark => ?_, fun mark one low high => ?_, fun mark one out => ?_, fun mark long more => ?_⟩
        · rw [assembleCharacter_address mark]; rfl
        · rw [assembleCharacter_length mark one, if_pos (bodyLengthOk_iff.mpr ⟨low, high⟩)]
        · rw [assembleCharacter_length mark one, if_neg (by rw [bodyLengthOk_iff]; omega)]; rfl
        · rw [assembleCharacter_body mark long, if_neg (by omega)]
    · have receiving : (s.lane i).receiving = true := by
        rcases turn with turn | turn
        · exact receiving_offTurn serve turn
        · exact receiving_inTurn serve turn nofun
      rw [takeCharacter_ignored receiving held ignored (turn.imp_right fun turn => ⟨d, turn⟩)]
  · refine congrArg Host.Outcome.next ?_
    rw [live, takeCharacter_deaf x (receiving_false deaf), ite_self]

/-- Settles O14: the last body character's frame, handed to dispatch or discarded. -/
theorem frameCompletes : Obligations.FrameCompletes := by
  rintro s i d x c l power rfl serve held turn good mark long last
  have receiving := receiving_inTurn serve turn nofun
  rw [exec_laneCharacter power, takeCharacter_assemble receiving held good turn, assembleCharacter_body mark long,
    if_pos last]
  have body : (((s.lane i).assembly ++ [c]).drop 2).map LaneChar.data =
      ((s.lane i).assembly.drop 2).map LaneChar.data ++ [c.data] := by
    rw [List.drop_append_of_le_length long, List.map_append, List.map_singleton]
  refine ⟨fun on => ?_, fun off => ?_⟩
  · rw [completeFrame_enrolled on, body]
  · rw [completeFrame_off off]

theorem exec_heldCharacterStands {s : State} (h : s.powered = true) (i : LaneId) :
    exec (.heldCharacterStands i) s = .next (s.mapLane i Lane.heldStands) :=
  congrArg Host.Outcome.next (live_powered h _)

/-- Settles O15: what is held by its phase, how it stands, and that it stands before a further character. -/
theorem heldCharacterStandsOrWaits : Obligations.HeldCharacterStandsOrWaits := by
  rintro s i l power rfl serve
  rw [exec_heldCharacterStands power, State.mapLane]
  refine ⟨fun x none held => ⟨?_, fun turn => ?_⟩, fun counted => ⟨fun d turn => ?_, fun d turn => ?_⟩,
    fun ignored => ?_, fun _ silent x => ⟨fun start => ?_, fun other => ⟨_, rfl, ?_⟩⟩⟩
  · rintro ⟨d, turn | turn⟩
    · rw [exec_laneCharacter power, takeCharacter_held (receiving_inTurn serve turn nofun) none held]
      simp only [Lane.takesCharacters, turn, if_true]
    · rw [exec_laneCharacter power, takeCharacter_held (receiving_inTurn serve turn nofun) none held]
      simp only [Lane.takesCharacters, turn, if_true]
  · rcases turn with turn | ⟨d, turn⟩
    · rw [exec_laneCharacter power, takeCharacter_held (receiving_offTurn serve turn) none held]
      simp only [Lane.takesCharacters, turn, Bool.false_eq_true, if_false]
    · rw [exec_laneCharacter power, takeCharacter_held (receiving_inTurn serve turn nofun) none held]
      simp only [Lane.takesCharacters, turn, Bool.false_eq_true, if_false]
  · simp only [Lane.heldStands, counted, Lane.badCharacter, turn]; rfl
  · simp only [Lane.heldStands, counted, Lane.badCharacter, turn]; rfl
  · simp only [Lane.heldStands, ignored]
  · rw [exec_laneCharacter power, takeCharacter_falseStart start]
  · rw [exec_laneCharacter power, exec_laneCharacter (s := s.setLane i _) power]
    have receiving := (receiving_iff (s.lane i)).mpr ⟨serve, silent⟩
    exact congrArg Host.Outcome.next (takeCharacter_mapLane_heldStands x receiving other).symm

/-! ## The reply queue (R20) -/

/-- Settles O17: the tests of R20 in their order. -/
theorem replyAdmission : Obligations.ReplyAdmission := by
  rintro s i d body l rfl
  refine ⟨fun isolated => mapLane_self ?_, fun mode off => mapLane_self ?_, fun mode on => ⟨fun lost => ?_,
    fun low high room => ?_⟩⟩
  · rw [Lane.offer, if_pos isolated]
  · rw [Lane.offer, if_neg mode, if_pos off]
  · rw [offerReply, State.mapLane, Lane.offer, if_neg mode, if_neg on]
    by_cases length : bodyLengthOk body.length = true
    · have full : 16 ≤ (s.lane i).replies.length := by have := bodyLengthOk_iff.mp length; omega
      rw [length, if_neg (by simp), if_pos full]; rfl
    · rw [if_pos (by simpa using length)]; rfl
  · rw [offerReply, State.mapLane, Lane.offer, if_neg mode, if_neg on,
      if_neg (by simpa using bodyLengthOk_iff.mpr ⟨low, high⟩), if_neg (by omega)]

end Sys2Proof.KioskLanes

namespace Sys2Proof.KioskLanes

open Sys2Proof Sys2Proof.Machine Sys2Proof.Safety

/-! ## Parity (R7, R8) -/

theorem oddOnes_append (l m : List Bool) : oddOnes (l ++ m) = (oddOnes l ^^ oddOnes m) := by
  induction l with
  | nil => simp [oddOnes]
  | cons b l ih =>
    rw [List.cons_append, oddOnes, ih, oddOnes]
    exact (Bool.xor_assoc b (oddOnes l) (oddOnes m)).symm

theorem oddOnes_map_xor {α : Type} (f g : α → Bool) (l : List α) :
    oddOnes (l.map fun a => f a ^^ g a) = (oddOnes (l.map f) ^^ oddOnes (l.map g)) := by
  induction l with
  | nil => rfl
  | cons a l ih =>
    simp only [List.map_cons, oddOnes, ih]
    cases f a <;> cases g a <;> simp

theorem oddOnes_map {α : Type} (f : α → Bool) (l : List α) : oddOnes (l.map f) = decide (l.countP f % 2 = 1) := by
  induction l with
  | nil => rfl
  | cons a l ih =>
    rw [List.map_cons, oddOnes, ih, List.countP_cons]
    have two := Nat.mod_two_eq_zero_or_one (l.countP f)
    cases f a with
    | false => simp
    | true => rcases two with e | e <;> simp [Nat.add_mod, e]

theorem parityError_iff (bits : BitVec 12) :
    parityError bits = true ↔ ((List.range 10).countP fun j => bits.getLsbD (1 + j)) % 2 = 1 := by
  simp only [parityError, oddOnes_map, decide_eq_true_eq, Nat.add_comm 1]

theorem parityError_xor (a b : BitVec 12) : parityError (a ^^^ b) = (parityError a ^^ parityError b) := by
  simp only [parityError, ← oddOnes_map_xor, BitVec.getLsbD_xor]

/-- One data, mark or parity bit alone is an odd number of ones. -/
theorem parityError_one {j : Nat} (low : 1 ≤ j) (high : j ≤ 10) : parityError (1#12 <<< j) = true := by
  have each : ∀ i, i < 10 → parityError (1#12 <<< (i + 1)) = true := by decide
  have := each (j - 1) (by omega)
  rwa [Nat.sub_add_cancel low] at this

/-! ## The bits of a character as it is sent (R7) -/

/-- The bits of a stop bit, a parity, a mark, eight data bits and a start bit put together. -/
theorem getLsbD_fields (parity mark : Bool) (data : BitVec 8) (i : Nat) :
    (1#1 ++ BitVec.ofBool parity ++ BitVec.ofBool mark ++ data ++ 0#1).getLsbD i =
      if i < 1 then false else if i < 9 then data.getLsbD (i - 1) else if i < 10 then mark
      else if i < 11 then parity else decide (i = 11) := by
  simp only [BitVec.getLsbD_append, BitVec.getLsbD_ofBool, BitVec.getLsbD_zero, BitVec.getLsbD_one]
  rcases (by omega : i < 1 ∨ (¬ i < 1 ∧ i - 1 < 8) ∨ i = 9 ∨ i = 10 ∨ 11 ≤ i) with h | ⟨low, high⟩ | rfl | rfl | h
  · rw [if_pos h, if_pos h]
  · rw [if_neg low, if_pos high, if_neg low, if_pos (by omega)]
  · rfl
  · rfl
  · rw [if_neg (by omega), if_neg (by omega), if_neg (by omega), if_neg (by omega), if_neg (by omega),
      if_neg (by omega), if_neg (by omega), if_neg (by omega)]
    exact decide_eq_decide.mpr (by omega)

section
variable (c : LaneChar)

/-- The bits of a character on the line (R7). -/
theorem getLsbD_bits (i : Nat) : c.bits.getLsbD i =
    if i < 1 then false else if i < 9 then c.data.getLsbD (i - 1) else if i < 10 then c.mark
    else if i < 11 then (c.mark ^^ oddOnes ((List.range 8).map c.data.getLsbD)) else decide (i = 11) :=
  getLsbD_fields _ _ _ i

theorem bits_start : c.bits.getLsbD 0 = false := getLsbD_bits c 0

theorem bits_data {j : Nat} (h : j < 8) : c.bits.getLsbD (1 + j) = c.data.getLsbD j := by
  rw [getLsbD_bits, if_neg (by omega), if_pos (by omega), Nat.add_sub_cancel_left]

theorem bits_mark : c.bits.getLsbD 9 = c.mark := getLsbD_bits c 9

theorem bits_parity : c.bits.getLsbD 10 = (c.mark ^^ oddOnes ((List.range 8).map c.data.getLsbD)) := getLsbD_bits c 10

theorem bits_stop : c.bits.getLsbD 11 = true := getLsbD_bits c 11

/-- Data, mark and parity hold an even number of ones. -/
theorem bits_even : parityError c.bits = false := by
  have ten : (List.range 10).map (fun i => c.bits.getLsbD (i + 1)) =
      (List.range 8).map c.data.getLsbD ++ [c.mark, c.bits.getLsbD 10] := by
    rw [show List.range 10 = List.range 8 ++ [8, 9] from rfl, List.map_append]
    refine congrArg₂ _ (List.map_congr_left fun i hi => ?_) ?_
    · rw [Nat.add_comm]; exact bits_data c (List.mem_range.mp hi)
    · rw [List.map_cons, List.map_singleton, bits_mark]
  rw [parityError, ten, oddOnes_append, bits_parity]
  cases c.mark <;> cases oddOnes ((List.range 8).map c.data.getLsbD) <;> rfl

theorem bits_extract : c.bits.extractLsb' 1 8 = c.data :=
  BitVec.eq_of_getLsbD_eq fun j h => by simp [h, bits_data c h]

end

/-! ## What three samples of each bit give (R8) -/

theorem majority_bit (x : Samples) (j : Nat) : (majorityOf x).getLsbD j =
    decide (2 ≤ [x.first, x.second, x.third].countP fun sample => sample.getLsbD j) := by
  simp only [majorityOf, BitVec.getLsbD_or, BitVec.getLsbD_and, List.countP_cons, List.countP_nil]
  cases x.first.getLsbD j <;> cases x.second.getLsbD j <;> cases x.third.getLsbD j <;> rfl

theorem noisy_false_iff (x : Samples) : noisy x = false ↔ x.first = x.second ∧ x.second = x.third := by
  simp [noisy, BitVec.or_eq_zero_iff, BitVec.xor_eq_zero_iff]

theorem noisy_iff (x : Samples) : noisy x = true ↔ ∃ j, j < 12 ∧
    ¬ (x.first.getLsbD j = x.second.getLsbD j ∧ x.second.getLsbD j = x.third.getLsbD j) := by
  rw [← not_iff_not, Bool.not_eq_true, noisy_false_iff]
  push Not
  constructor
  · rintro ⟨a, b⟩ j -
    rw [a, b]; exact ⟨rfl, rfl⟩
  · intro same
    exact ⟨BitVec.eq_of_getLsbD_eq fun j h => (same j h).1, BitVec.eq_of_getLsbD_eq fun j h => (same j h).2⟩

section
variable {x : Samples}

/-- The verdict on a character by its start bit, its stop bit and its faults. -/
theorem receive_eq (x : Samples) : receive x = if (majorityOf x).getLsbD 0 = true then .falseStart
    else if (!(majorityOf x).getLsbD 11) = true then .held
    else if (noisy x || parityError (majorityOf x)) = true then .bad
    else .good ⟨(majorityOf x).getLsbD 9, (majorityOf x).extractLsb' 1 8⟩ := rfl

theorem receive_falseStart_iff : receive x = .falseStart ↔ (majorityOf x).getLsbD 0 = true := by
  rw [receive_eq]
  generalize (majorityOf x).getLsbD 0 = start
  split_ifs with a <;> simp [a]

theorem receive_held_iff : receive x = .held ↔
    (majorityOf x).getLsbD 0 = false ∧ (majorityOf x).getLsbD 11 = false := by
  rw [receive_eq]
  generalize (majorityOf x).getLsbD 0 = start
  generalize (majorityOf x).getLsbD 11 = stop
  cases start <;> cases stop <;> simp
  split_ifs <;> simp

theorem receive_bad_iff : receive x = .bad ↔ (majorityOf x).getLsbD 0 = false ∧ (majorityOf x).getLsbD 11 = true ∧
    (noisy x = true ∨ parityError (majorityOf x) = true) := by
  rw [receive_eq]
  generalize (majorityOf x).getLsbD 0 = start
  generalize (majorityOf x).getLsbD 11 = stop
  cases start <;> cases stop <;> simp
  rw [imp_iff_not_or, Bool.not_eq_false]

theorem receive_good (start : (majorityOf x).getLsbD 0 = false) (stop : (majorityOf x).getLsbD 11 = true)
    (quiet : noisy x = false) (even : parityError (majorityOf x) = false) :
    receive x = .good ⟨(majorityOf x).getLsbD 9, (majorityOf x).extractLsb' 1 8⟩ := by
  rw [receive_eq, start, stop, quiet, even]; rfl

end

theorem majority_same (b : BitVec 12) : majorityOf ⟨b, b, b⟩ = b := by simp [majorityOf]

/-- A character without noise is received as itself. -/
theorem receive_samples (c : LaneChar) : receive c.samples = .good c := by
  have same : majorityOf c.samples = c.bits := majority_same c.bits
  rw [receive_good (same ▸ bits_start c) (same ▸ bits_stop c) ((noisy_false_iff _).mpr ⟨rfl, rfl⟩)
    (same ▸ bits_even c), same, bits_mark, bits_extract]

/-- One disturbed sample of some bits leaves their values. -/
theorem majority_disturbed (b m : BitVec 12) {x : Samples}
    (h : x = ⟨b ^^^ m, b, b⟩ ∨ x = ⟨b, b ^^^ m, b⟩ ∨ x = ⟨b, b, b ^^^ m⟩) : majorityOf x = b := by
  refine BitVec.eq_of_getLsbD_eq fun j _ => ?_
  rcases h with rfl | rfl | rfl <;>
    (simp only [majorityOf, BitVec.getLsbD_or, BitVec.getLsbD_and, BitVec.getLsbD_xor]
     cases b.getLsbD j <;> cases m.getLsbD j <;> rfl)

theorem noisy_disturbed {b m : BitVec 12} (hm : m ≠ 0) {x : Samples}
    (h : x = ⟨b ^^^ m, b, b⟩ ∨ x = ⟨b, b ^^^ m, b⟩ ∨ x = ⟨b, b, b ^^^ m⟩) : noisy x = true := by
  have change : b ^^^ m ≠ b := fun e => hm (by simpa using e)
  rw [← Bool.not_eq_false, noisy_false_iff]
  rcases h with rfl | rfl | rfl
  · exact fun same => change same.1
  · exact fun same => change same.2
  · exact fun same => change same.2.symm

/-- One inverted data, mark or parity bit makes a character bad. -/
theorem receive_inverted (c : LaneChar) {j : Nat} (low : 1 ≤ j) (high : j ≤ 10) :
    receive ⟨c.bits ^^^ (1#12 <<< j), c.bits ^^^ (1#12 <<< j), c.bits ^^^ (1#12 <<< j)⟩ = .bad := by
  rw [receive_bad_iff, majority_same, parityError_xor, bits_even, parityError_one low high, BitVec.getLsbD_xor,
    BitVec.getLsbD_xor, bits_start, bits_stop, BitVec.getLsbD_shiftLeft, BitVec.getLsbD_shiftLeft]
  have zero : decide (0 < j) = true := decide_eq_true low
  have eleven : (1#12).getLsbD (11 - j) = false := by
    have : 11 - j ≠ 0 := by omega
    simp [this]
  simp [zero, eleven]

/-- Settles O12: what is sent, what one disturbed sample or one inverted bit makes of it, and what any samples give. -/
theorem charactersAndNoise : Obligations.CharactersAndNoise := by
  refine ⟨fun c => ⟨rfl, bits_start c, fun j h => bits_data c h, bits_mark c, ?_, bits_stop c, receive_samples c,
    fun m hm x disturbed => ?_, fun j low high => receive_inverted c low high⟩, fun x => ?_⟩
  · have even := bits_even c
    rw [← Bool.not_eq_true, parityError_iff] at even
    omega
  · have same := majority_disturbed _ _ disturbed
    exact ⟨receive_bad_iff.mpr ⟨same ▸ bits_start c, same ▸ bits_stop c, .inl (noisy_disturbed hm disturbed)⟩, same⟩
  · intro bit noise odd
    have majority : ∀ j, (majorityOf x).getLsbD j = bit j := majority_bit x
    have parity : parityError (majorityOf x) = true ↔ odd := by
      rw [parityError_iff]; simp only [majority]; rfl
    refine ⟨fun j _ => majority j, ?_, ?_, ?_, fun start stop quiet even => ?_⟩
    · rw [receive_falseStart_iff, majority]
    · rw [receive_held_iff, majority, majority]
    · rw [receive_bad_iff, majority, majority, noisy_iff, parity]
    · have quiet : noisy x = false := by rw [← Bool.not_eq_true, noisy_iff]; exact quiet
      have even : parityError (majorityOf x) = false := by rw [← Bool.not_eq_true, parity]; exact even
      refine ⟨_, receive_good ((majority 0).trans start) ((majority 11).trans stop) quiet even, majority 9,
        fun j h => ?_⟩
      rw [← majority]
      simp [h]

end Sys2Proof.KioskLanes

namespace Sys2Proof.KioskLanes

open Sys2Proof Sys2Proof.Machine Sys2Proof.Safety

/-! ## The state after reset -/

theorem lane_reset (i : LaneId) : State.reset.lane i = Lane.reset := by simp [State.lane, State.reset, State.afterReset]

theorem txn_reset (c : CtxId) : State.reset.txn c = none := by
  simp [State.txn, State.ctx, State.reset, State.afterReset, Dct.reset]

theorem pool_reset (k : RecordKind) : State.reset.pool k = Pool.reset k := by cases k <;> rfl

theorem entry_reset (k : RecordKind) (n : Nat) : State.reset.entry k n = .empty := by
  rw [State.entry, pool_reset, Pool.entry, Pool.reset, List.getD_eq_getElem?_getD, List.getElem?_replicate]
  split <;> rfl

theorem slot_reset (i : SlotId) : State.reset.slot i = ⟨0, none, false⟩ := by
  simp [State.slot, State.reset, State.afterReset, FillUnit.reset]

theorem commitRec_reset (c : CtxId) : State.reset.commitRec c = CommitRecord.reset := by
  simp [State.commitRec, State.reset, State.afterReset]

theorem held_reset : State.reset.bli.held = [.unitStarted .line] := rfl

theorem lineShares_reset : LineShares State.reset where
  relays := by rw [Bli.relaysHeld, held_reset]; decide
  fetches i := by rw [held_reset, slot_reset]; rfl
  updates c := by rw [held_reset, commitRec_reset]; rfl
  replies := rfl
  started := by rw [held_reset]; decide
  owed c f h := by rw [commitRec_reset] at h; cases h
  idle _ := .inr ⟨.line, rfl⟩

theorem keysOnce_reset : KeysOnce State.reset where
  once k key n m h := by rw [HoldsKey, entry_reset] at h; exact h.elim
  slots i f h := by rw [slot_reset] at h; cases h
  waiting w h := by cases h
  apart := by
    have none : allSlots.filterMap (fun i => (State.reset.slot i).fill.map fun f => (f.kind, f.entry)) = [] :=
      List.filterMap_eq_nil_iff.mpr fun i _ => by rw [slot_reset]; rfl
    rw [fillPlaces, none]
    exact List.nodup_nil
  quiesced h := by cases h

/-- Settles O55: every list is empty after reset, every context FREE, and UNIT_STARTED alone is held for the line. -/
theorem resetMeetsInvariants : Obligations.ResetMeetsInvariants := by
  refine ⟨lineShares_reset.relays, fun i => ?_, lineShares_reset, fun k => ?_, ⟨nofun, by decide +kernel⟩, fun i => ?_,
    ?_, rfl, ?_, keysOnce_reset, fun k => ⟨?_, fun n => ?_⟩, by decide⟩
  · rw [lane_reset]; exact replyBounds_kept.reset
  · rw [pool_reset]; exact ⟨List.length_replicate, .refl _⟩
  · rw [lane_reset]; exact laneShape_kept.reset
  · exact Nat.zero_le 16
  · rw [inFlight_iff]
    intro i d
    have none : tagsOf State.reset i d = [] :=
      List.filterMap_eq_nil_iff.mpr fun c _ => tagAt_of_free i d (txn_reset c)
    rw [none]
    exact ⟨Nat.zero_le 2, List.nodup_nil⟩
  · rw [pool_reset]; exact List.nodup_nil
  · rw [entry_reset]; trivial

/-! ## Reading fields out of a report -/

/-- In a run of blocks of one size, place `j` of block `i`. -/
theorem getD_flatMap {α β : Type} (f : α → List β) (size : Nat) (same : ∀ a, (f a).length = size) (l : List α) (z : β)
    {i j : Nat} (hi : i < l.length) (hj : j < size) : (l.flatMap f).getD (size * i + j) z = (f l[i]).getD j z := by
  induction l generalizing i with
  | nil => simp at hi
  | cons a l ih => cases i with
    | zero => rw [List.flatMap_cons, Nat.mul_zero, Nat.zero_add, List.getD_append _ _ _ _ (by rw [same]; exact hj)]; rfl
    | succ i =>
      have past : size * (i + 1) + j - size = size * i + j := by rw [Nat.mul_succ]; omega
      rw [List.flatMap_cons, List.getD_append_right _ _ _ _ (by rw [same, Nat.mul_succ]; omega), same, past]
      exact ih (by simpa using hi)

/-- The place `k` behind a run of octets. -/
theorem getD_skip {α : Type} (a b : List α) (z : α) {n : Nat} (k : Nat) (h : a.length = n) :
    (a ++ b).getD (n + k) z = b.getD k z := by
  rw [List.getD_append_right _ _ _ _ (by omega), h, Nat.add_sub_cancel_left]

theorem natAt_two (image : List Octet) (n : Nat) : natAt image n 2 = beNat [image.getD n 0, image.getD (n + 1) 0] := rfl

/-- A word written as the two octets at a place. -/
theorem natAt_of_octets {image : List Octet} {n x : Nat} (high : image.getD n 0 = octet (x / 256))
    (low : image.getD (n + 1) 0 = octet x) (small : x < 65536) : natAt image n 2 = x := by
  rw [natAt_two, high, low]
  simp only [beNat, List.length_singleton, List.length_nil, octet_toNat]
  omega

theorem allLanes_getElem (i : LaneId) : allLanes[i.val]'i.isLt = i := by revert i; decide

/-! ## READ_STATUS (R191, R202) -/

theorem exec_readStatus {s : State} (h : Manageable s) (seq : Octet) :
    exec (.readStatus seq) s = .next (answer seq readStatusCode .done (statusBlock s) (counted s)) :=
  congrArg Host.Outcome.next (live_arriveMgmt h _ rfl (Nat.le_of_ble_eq_true rfl) (Nat.le_of_ble_eq_true rfl))

theorem store_status_length (r : RuleStore) : r.statusOctets.length = 4 := by
  unfold RuleStore.statusOctets; dsimp only; split <;> rfl

theorem lanes_status_length (s : State) : (allLanes.flatMap fun i => (s.lane i).statusOctets).length = 40 := rfl

/-- The 14 octets of the status block that stand before the lanes'. -/
def statusHead (s : State) : List Octet :=
  beOctets 2 s.um.day.toNat ++
    [s.um.service.code, s.um.override.code, s.um.cause.code, s.bli.unitNumber.setWidth 8,
     octet (busyContexts s), octet (slotsInUse s)] ++
    beOctets 2 s.rc.patron.occupancy ++ beOctets 2 s.rc.title.occupancy ++ beOctets 2 s.rc.item.occupancy

theorem statusBlock_eq (s : State) : statusBlock s =
    statusHead s ++ ((allLanes.flatMap fun i => (s.lane i).statusOctets) ++ s.rs.statusOctets) :=
  List.append_assoc (statusHead s) _ _

theorem statusBlock_length (s : State) : (statusBlock s).length = 58 := by
  rw [statusBlock_eq, List.length_append, List.length_append, lanes_status_length, store_status_length]; rfl

theorem statusBlock_head (s : State) {n : Nat} (h : n < 14) : (statusBlock s).getD n 0 = (statusHead s).getD n 0 := by
  rw [statusBlock_eq, List.getD_append _ _ _ _ h]

theorem statusBlock_lane (s : State) (i : LaneId) {j : Nat} (h : j < 10) :
    (statusBlock s).getD (14 + (10 * i.val + j)) 0 = (s.lane i).statusOctets.getD j 0 := by
  rw [statusBlock_eq, getD_skip (n := 14) _ _ _ _ rfl, List.getD_append _ _ _ _ (by rw [lanes_status_length]; omega),
    getD_flatMap _ 10 (fun _ => rfl) allLanes 0 i.isLt h, allLanes_getElem]

theorem statusBlock_store (s : State) (j : Nat) : (statusBlock s).getD (54 + j) 0 = s.rs.statusOctets.getD j 0 := by
  rw [statusBlock_eq, show 54 + j = 14 + (40 + j) by omega, getD_skip (n := 14) _ _ _ _ rfl,
    getD_skip _ _ _ _ (lanes_status_length s)]

theorem dropRecord_code (r : DropRecord) : r.code.toNat = (match r.enrolment with
    | .off => 0
    | .served => 1
    | .relayed => 2) + (if r.presence = .absent then 4 else 0) := by
  unfold DropRecord.code
  cases r.enrolment <;> cases r.presence <;> rfl

theorem busyContexts_le (s : State) : busyContexts s ≤ 16 := List.countP_le_length

theorem slotsInUse_le (s : State) : slotsInUse s ≤ 4 := List.countP_le_length

/-- A pool of the fixed size has an occupancy that two octets hold. -/
theorem occupancy_lt {s : State} (h : PoolShape s) (k : RecordKind) : (s.pool k).occupancy < 65536 := by
  have size : (s.pool k).occupancy ≤ k.poolSize := (h k).1 ▸ List.countP_le_length
  have fixed : k.poolSize ≤ 256 := by cases k <;> decide
  omega

/-! ## READ_COUNTERS (R192) -/

theorem exec_readCounters {s : State} (h : Manageable s) (seq clearAfter : Octet) :
    exec (.readCounters seq clearAfter) s = .next (manageReadCounters seq clearAfter (counted s)) :=
  congrArg Host.Outcome.next (live_arriveMgmt h _ rfl (Nat.le_of_ble_eq_true rfl) (Nat.le_of_ble_eq_true rfl))

/-- The octets of a report of counters. -/
def counterOctets (cs : List Counter) : List Octet := cs.flatMap fun c => beOctets 2 c.toNat

/-- The 44 counters, lane by lane, then the link's and the transactions'. -/
theorem allCounters_eq (s : State) : allCounters s = (allLanes.flatMap fun i => (s.lane i).counters.toList) ++
    (s.bli.counters.toList ++ s.dct.counters.toList) := List.append_assoc _ _ _

theorem allCounters_length (s : State) : (allCounters s).length = 44 := rfl

/-- Counter `k` of a report. -/
theorem natAt_counterOctets (cs : List Counter) {k : Nat} (h : k < cs.length) :
    natAt (counterOctets cs) (2 * k) 2 = (cs.getD k 0).toNat := by
  have two : ∀ c : Counter, (beOctets 2 c.toNat).length = 2 := fun _ => rfl
  have one : octet (cs[k].toNat / 256 ^ 0) = octet cs[k].toNat := by rw [Nat.pow_zero, Nat.div_one]
  rw [List.getD_eq_getElem _ _ h]
  exact natAt_of_octets (getD_flatMap _ 2 two cs 0 (j := 0) h (by decide))
    ((getD_flatMap _ 2 two cs 0 (j := 1) h (by decide)).trans one) cs[k].isLt

theorem allCounters_lane (s : State) (i : LaneId) {j : Nat} (h : j < 8) :
    (allCounters s).getD (8 * i.val + j) 0 = (s.lane i).counters.toList.getD j 0 := by
  have lanes : (allLanes.flatMap fun i => (s.lane i).counters.toList).length = 32 := rfl
  rw [allCounters_eq, List.getD_append _ _ _ _ (by rw [lanes]; omega),
    getD_flatMap _ 8 (fun _ => rfl) allLanes 0 i.isLt h, allLanes_getElem]

theorem allCounters_link (s : State) {j : Nat} (h : j < 6) :
    (allCounters s).getD (32 + j) 0 = s.bli.counters.toList.getD j 0 := by
  rw [allCounters_eq, getD_skip (n := 32) _ _ _ _ rfl, List.getD_append _ _ _ _ h]

theorem allCounters_txn (s : State) (j : Nat) :
    (allCounters s).getD (38 + j) 0 = s.dct.counters.toList.getD j 0 := by
  rw [allCounters_eq, show 38 + j = 32 + (6 + j) by omega, getD_skip (n := 32) _ _ _ _ rfl,
    getD_skip (n := 6) _ _ _ _ rfl]

/-- Settles O52: each counter's advance, each field of the status block at its place, and the 44 counters in order. -/
theorem statusAndCountersReports : Obligations.StatusAndCountersReports := by
  unfold Obligations.StatusAndCountersReports
  intro laneOrder linkOrder txnOrder up
  refine ⟨fun c k => by cases k <;> rfl, fun c k => by cases k <;> rfl, fun c k => by cases k <;> rfl,
    fun s seq clearAfter h => ⟨⟨statusBlock s, exec_readStatus h seq, statusBlock_length s, ?_, ?_, ?_, ?_, ?_, ?_, ?_,
      fun pools => ⟨?_, ?_, ?_⟩, fun i => ⟨?_, ?_, fun d => ?_⟩, fun ready => ?_, fun o busy => ?_, ?_⟩,
      ⟨counterOctets (allCounters (counted s)), if clearAfter ≠ 0 then clearCounters (counted s) else counted s,
        exec_readCounters h seq clearAfter, rfl, fun i j hj => ?_, fun j hj => ?_, fun j hj => ?_, ?_, ?_⟩⟩⟩
  · exact natAt_of_octets (statusBlock_head s (by decide)) ((statusBlock_head s (by decide)).trans
      (congrArg octet (Nat.div_one _))) s.um.day.isLt
  · rw [statusBlock_head s (by decide)]; show s.um.service.code = _; cases s.um.service <;> rfl
  · rw [statusBlock_head s (by decide)]; show s.um.override.code = _; cases s.um.override <;> rfl
  · rw [statusBlock_head s (by decide)]; show s.um.cause.code = _; cases s.um.cause <;> rfl
  · exact statusBlock_head s (by decide)
  · rw [statusBlock_head s (by decide)]
    exact (octet_toNat _).trans (Nat.mod_eq_of_lt (by have := busyContexts_le s; omega))
  · rw [statusBlock_head s (by decide)]
    exact (octet_toNat _).trans (Nat.mod_eq_of_lt (by have := slotsInUse_le s; omega))
  · exact natAt_of_octets (statusBlock_head s (by decide)) ((statusBlock_head s (by decide)).trans
      (congrArg octet (Nat.div_one _))) (occupancy_lt pools .patron)
  · exact natAt_of_octets (statusBlock_head s (by decide)) ((statusBlock_head s (by decide)).trans
      (congrArg octet (Nat.div_one _))) (occupancy_lt pools .title)
  · exact natAt_of_octets (statusBlock_head s (by decide)) ((statusBlock_head s (by decide)).trans
      (congrArg octet (Nat.div_one _))) (occupancy_lt pools .item)
  · rw [show 14 + 10 * i.val = 14 + (10 * i.val + 0) by omega, statusBlock_lane s i (by decide)]
    show (s.lane i).mode.code = _
    cases (s.lane i).mode <;> rfl
  · rw [show 15 + 10 * i.val = 14 + (10 * i.val + 1) by omega, statusBlock_lane s i (by decide)]
    exact (octet_toNat _).trans (Nat.mod_eq_of_lt (by omega))
  · have eight := d.isLt
    rw [show 16 + 10 * i.val + d.val = 14 + (10 * i.val + (d.val + 2)) by omega, statusBlock_lane s i (by omega)]
    have codes : (s.lane i).statusOctets.getD (d.val + 2) 0 = ((s.lane i).dropRec d).code := by
      fin_cases d <;> rfl
    exact (congrArg BitVec.toNat codes).trans (dropRecord_code _)
  · have store := statusBlock_store s
    simp only [RuleStore.statusOctets, ready] at store
    exact ⟨store 0, store 1, store 2⟩
  · have store := statusBlock_store s
    simp only [RuleStore.statusOctets, busy] at store
    refine ⟨store 0, (store 1).trans ?_, ?_⟩
    · show o.kind.code = _
      cases o.kind <;> rfl
    · rw [store 2]
      exact (octet_toNat _).trans (Nat.mod_eq_of_lt (by omega))
  · rw [statusBlock_store s 3]
    unfold RuleStore.statusOctets
    cases s.rs.operation <;> cases s.rs.writeError <;> cases s.rs.sequenceError <;> rfl
  · have four := i.isLt
    rw [show 16 * i.val + 2 * j = 2 * (8 * i.val + j) by omega,
      natAt_counterOctets _ (by rw [allCounters_length]; omega), allCounters_lane _ i hj]; rfl
  · rw [show 64 + 2 * j = 2 * (32 + j) by omega,
      natAt_counterOctets _ (by rw [allCounters_length]; omega), allCounters_link _ hj]; rfl
  · rw [show 76 + 2 * j = 2 * (38 + j) by omega,
      natAt_counterOctets _ (by rw [allCounters_length]; omega), allCounters_txn]; rfl
  · intro keep
    rw [if_neg (not_not.mpr keep)]
  · intro clear
    rw [if_pos clear]
    exact ⟨lane_clearCounters (counted s), rfl, rfl, rfl, rfl, rfl, rfl, rfl, rfl, rfl⟩

end Sys2Proof.KioskLanes

namespace Sys2Proof.KioskLanes

open Sys2Proof Sys2Proof.Machine Sys2Proof.Safety

/-! ## Who waits for an entry and who holds it (R70, R73, R76) -/

/-- The contexts on an entry's wait list. -/
def waiters : Entry → List CtxId
  | .filling _ ws | .valid _ _ ws => ws
  | .empty | .transient .. => []

/-- The contexts that wait for an entry's lock. -/
def lockWaiters : Entry → List CtxId
  | .valid _ _ ws => ws
  | .empty | .filling .. | .transient .. => []

/-- The context owns the entry's lock, or owns it as TRANSIENT. -/
def HeldBy (c : CtxId) : Entry → Prop
  | .valid _ o _ => o = some c
  | .transient _ _ o => o = c
  | .empty | .filling .. => False

/-- The context's release leaves the entry EMPTY (R73, R76). -/
def EmptiedBy (c : CtxId) : Entry → Prop
  | .valid copy o _ => o = some c ∧ copy.stale ≠ none
  | .transient _ _ o => o = c
  | .empty | .filling .. => False

/-- No record is held there. -/
def Vacant : Entry → Prop
  | .empty | .filling .. => True
  | .valid .. | .transient .. => False

theorem EmptiedBy.held {c : CtxId} {e : Entry} (h : EmptiedBy c e) : HeldBy c e := by
  cases e with
  | valid copy o ws => exact h.1
  | transient copy tainted o => exact h
  | empty => exact h
  | filling key ws => exact h

theorem lockWaiters_subset (e : Entry) : lockWaiters e ⊆ waiters e := by
  cases e with
  | valid copy o ws => exact fun _ h => h
  | empty => exact List.nil_subset _
  | filling key ws => exact List.nil_subset _
  | transient copy tainted o => exact List.nil_subset _

theorem vacated_iff (s : State) (k : RecordKind) (n : Nat) : Vacated s k n ↔ Vacant (s.entry k n) := by
  unfold Vacated
  cases s.entry k n <;> simp [Vacant]

theorem onNoList_iff (s : State) (c : CtxId) : OnNoList s c ↔
    (∀ k, c ∉ (s.pool k).queue) ∧ c ∉ s.au.list ∧ c ∉ s.au.waits ∧ ∀ k n, c ∉ waiters (s.entry k n) := by
  have entries : ∀ k n, (match s.entry k n with
      | .filling _ ws | .valid _ _ ws => c ∉ ws
      | .empty | .transient .. => True) ↔ c ∉ waiters (s.entry k n) := fun k n => by
    cases s.entry k n <;> simp [waiters]
  unfold OnNoList
  exact and_congr_right fun _ => and_congr_right fun _ => and_congr_right fun _ =>
    forall_congr' fun k => forall_congr' fun n => entries k n

theorem dropWaiter_waiters (c : CtxId) (e : Entry) : waiters (e.dropWaiter c) = (waiters e).filter (· ≠ c) := by
  cases e <;> rfl

theorem dropWaiter_lockWaiters (c : CtxId) (e : Entry) :
    lockWaiters (e.dropWaiter c) = (lockWaiters e).filter (· ≠ c) := by
  cases e <;> rfl

theorem dropWaiter_heldBy (c d : CtxId) (e : Entry) : HeldBy d (e.dropWaiter c) ↔ HeldBy d e := by
  cases e <;> rfl

theorem dropWaiter_emptiedBy (c d : CtxId) (e : Entry) : EmptiedBy d (e.dropWaiter c) ↔ EmptiedBy d e := by
  cases e <;> rfl

theorem dropWaiter_vacant (c : CtxId) (e : Entry) : Vacant (e.dropWaiter c) ↔ Vacant e := by
  cases e <;> rfl

/-! ## Leaving every list -/

@[simp] theorem leaveLists_entry (c : CtxId) (s : State) (k : RecordKind) (n : Nat) :
    (leaveLists c s).entry k n = (s.entry k n).dropWaiter c := by
  have drop : ∀ p : Pool, (p.dropWaiter c).entry n = (p.entry n).dropWaiter c := fun p =>
    List.getD_map p.entries Entry.empty (Entry.dropWaiter c)
  cases k with
  | patron => exact drop _
  | title => exact drop _
  | item => exact drop _

@[simp] theorem leaveLists_queue (c : CtxId) (s : State) (k : RecordKind) :
    ((leaveLists c s).pool k).queue = (s.pool k).queue.filter (· ≠ c) := by
  cases k <;> rfl

@[simp] theorem leaveLists_txn (c d : CtxId) (s : State) : (leaveLists c s).txn d = s.txn d := rfl

/-! ## Letting go of one entry -/

section
variable (c : CtxId) (k : RecordKind) (n : Nat) (s : State)

/-- What a context does not hold, it does not let go of. -/
theorem releaseEntry_of_unheld (h : ¬ HeldBy c (s.entry k n)) : releaseEntry c k n s = (s, []) := by
  unfold releaseEntry
  split
  · next copy o ws e =>
    rw [e] at h
    exact if_pos fun same => h (congrArg some same)
  · next copy tainted o e =>
    rw [e] at h
    exact if_neg h
  · rfl

theorem releaseEntry_stale {copy : Copy} {ws : List CtxId} (e : s.entry k n = .valid copy (some c) ws)
    (stale : copy.stale ≠ none) : releaseEntry c k n s =
      (ws.foldl (fun s w => s.mapTxn w (·.lose k)) (s.setEntry k n .empty), ws.map .resume ++ [.retry k]) := by
  have is : copy.stale.isSome = true := Option.isSome_iff_ne_none.mpr stale
  simp only [releaseEntry, e, ne_eq, not_true_eq_false, if_false, is, if_true]

theorem releaseEntry_unlocked {copy : Copy} (e : s.entry k n = .valid copy (some c) []) (good : copy.stale = none) :
    releaseEntry c k n s = (s.setEntry k n (.valid copy none []), [.retry k]) := by
  simp [releaseEntry, e, good]

theorem releaseEntry_passed {copy : Copy} {w : CtxId} {rest : List CtxId}
    (e : s.entry k n = .valid copy (some c) (w :: rest)) (good : copy.stale = none) : releaseEntry c k n s =
      (((s.setEntry k n (.valid copy (some w) rest)).touch k n).mapTxn w (·.found k n true), [.resume w]) := by
  simp [releaseEntry, e, good]

theorem releaseEntry_transient {copy : Copy} {tainted : Bool} (e : s.entry k n = .transient copy tainted c) :
    releaseEntry c k n s = (s.setEntry k n .empty, [.retry k]) := by
  simp [releaseEntry, e]

/-- The ways an entry is let go of. -/
theorem releaseEntry_cases : (¬ HeldBy c (s.entry k n) ∧ releaseEntry c k n s = (s, [])) ∨
    (EmptiedBy c (s.entry k n) ∧ ∃ ts, releaseEntry c k n s =
      ((lockWaiters (s.entry k n)).foldl (fun s w => s.mapTxn w (·.lose k)) (s.setEntry k n .empty), ts)) ∨
    (∃ copy, s.entry k n = .valid copy (some c) [] ∧
      releaseEntry c k n s = (s.setEntry k n (.valid copy none []), [.retry k])) ∨
    ∃ copy w rest, s.entry k n = .valid copy (some c) (w :: rest) ∧ releaseEntry c k n s =
      (((s.setEntry k n (.valid copy (some w) rest)).touch k n).mapTxn w (·.found k n true), [.resume w]) := by
  by_cases held : HeldBy c (s.entry k n)
  · cases e : s.entry k n with
    | empty => rw [e] at held; exact held.elim
    | filling key ws => rw [e] at held; exact held.elim
    | transient copy tainted o =>
      rw [e] at held
      obtain rfl : o = c := held
      exact .inr (.inl ⟨rfl, _, releaseEntry_transient _ _ _ _ e⟩)
    | valid copy o ws =>
      rw [e] at held
      obtain rfl : o = some c := held
      by_cases stale : copy.stale = none
      · cases ws with
        | nil => exact .inr (.inr (.inl ⟨copy, rfl, releaseEntry_unlocked _ _ _ _ e stale⟩))
        | cons w rest => exact .inr (.inr (.inr ⟨copy, w, rest, rfl, releaseEntry_passed _ _ _ _ e stale⟩))
      · exact .inr (.inl ⟨⟨rfl, stale⟩, _, releaseEntry_stale _ _ _ _ e stale⟩)
  · exact .inl ⟨held, releaseEntry_of_unheld c k n s held⟩

end

theorem foldl_mapTxn_rc (f : Txn → Txn) (ws : List CtxId) (s : State) :
    (ws.foldl (fun s w => s.mapTxn w f) s).rc = s.rc := by
  induction ws generalizing s with
  | nil => rfl
  | cons w ws ih => exact ih _

theorem foldl_mapTxn_au (f : Txn → Txn) (ws : List CtxId) (s : State) :
    (ws.foldl (fun s w => s.mapTxn w f) s).au = s.au := by
  induction ws generalizing s with
  | nil => rfl
  | cons w ws ih => exact ih _

theorem foldl_mapTxn_txn (f : Txn → Txn) (ws : List CtxId) (s : State) (d : CtxId) (h : d ∉ ws) :
    (ws.foldl (fun s w => s.mapTxn w f) s).txn d = s.txn d := by
  induction ws generalizing s with
  | nil => rfl
  | cons w ws ih =>
    rw [List.mem_cons, not_or] at h
    rw [List.foldl_cons, ih _ h.2, State.txn_mapTxn_ne s f (Ne.symm h.1)]

/-- The need of a kind, where the context is busy: `none` when it is FREE. -/
def needOf (k : RecordKind) (s : State) (c : CtxId) : Option (Option Need) := (s.txn c).map (·.need k)

theorem needOf_mapTxn {f : Txn → Txn} {k : RecordKind} (keeps : ∀ x, (f x).need k = x.need k) (s : State)
    (w d : CtxId) : needOf k (s.mapTxn w f) d = needOf k s d := by
  by_cases h : w = d
  · subst h
    rw [needOf, State.txn_mapTxn, Option.map_map]
    exact congrArg (Option.map · (s.txn w)) (funext keeps)
  · rw [needOf, State.txn_mapTxn_ne s f h, needOf]

theorem needOf_foldl {f : Txn → Txn} {k : RecordKind} (keeps : ∀ x, (f x).need k = x.need k) (ws : List CtxId)
    (s : State) (d : CtxId) : needOf k (ws.foldl (fun s w => s.mapTxn w f) s) d = needOf k s d := by
  induction ws generalizing s with
  | nil => rfl
  | cons w ws ih => rw [List.foldl_cons, ih, needOf_mapTxn keeps]

theorem need_setNeed (x : Txn) (k : RecordKind) (m : Option Need) : (x.setNeed k m).need k = m := by
  cases k <;> rfl

theorem need_setNeed_ne (x : Txn) {k l : RecordKind} (m : Option Need) (h : k ≠ l) :
    (x.setNeed k m).need l = x.need l := by
  cases k <;> cases l <;> simp [Txn.setNeed, Txn.need] at h ⊢

theorem setEntry_queue (s : State) (k l : RecordKind) (n : Nat) (e : Entry) :
    ((s.setEntry k n e).pool l).queue = (s.pool l).queue := by
  cases k <;> cases l <;> rfl

theorem touch_queue (s : State) (k l : RecordKind) (n : Nat) : ((s.touch k n).pool l).queue = (s.pool l).queue := by
  cases k <;> cases l <;> rfl

/-- A number beyond the pool reads EMPTY. -/
theorem lt_of_entry {s : State} {k : RecordKind} {n : Nat} (h : s.entry k n ≠ .empty) :
    n < (s.pool k).entries.length := by
  by_contra beyond
  exact h (List.getD_eq_default _ _ (not_lt.mp beyond))

theorem EmptiedBy.lt {c : CtxId} {s : State} {k : RecordKind} {n : Nat} (h : EmptiedBy c (s.entry k n)) :
    n < (s.pool k).entries.length := lt_of_entry fun e => by rw [e] at h; exact h

section
variable (c : CtxId) (k : RecordKind) (n : Nat) (s : State)

theorem foldl_mapTxn_entry (f : Txn → Txn) (ws : List CtxId) :
    (ws.foldl (fun s w => s.mapTxn w f) s).entry k n = s.entry k n := by
  rw [State.entry, State.pool, foldl_mapTxn_rc]; rfl

/-- Letting go of an entry changes the queues and AU's lists in no way. -/
theorem releaseEntry_lists : (∀ l, ((releaseEntry c k n s).1.pool l).queue = (s.pool l).queue) ∧
    (releaseEntry c k n s).1.au = s.au := by
  rcases releaseEntry_cases c k n s with ⟨-, e⟩ | ⟨-, ts, e⟩ | ⟨copy, -, e⟩ | ⟨copy, w, rest, -, e⟩ <;> rw [e]
  · exact ⟨fun _ => rfl, rfl⟩
  · exact ⟨fun l => by rw [State.pool, foldl_mapTxn_rc]; exact setEntry_queue s k l n _, foldl_mapTxn_au _ _ _⟩
  · exact ⟨fun l => setEntry_queue s k l n _, rfl⟩
  · exact ⟨fun l => (touch_queue _ k l n).trans (setEntry_queue s k l n _), rfl⟩

/-- Letting go of an entry leaves every other entry alone. -/
theorem releaseEntry_entry_other {l : RecordKind} {m : Nat} (h : k = l → n ≠ m) :
    (releaseEntry c k n s).1.entry l m = s.entry l m := by
  have written : ∀ e, (s.setEntry k n e).entry l m = s.entry l m := fun e => by
    by_cases same : k = l
    · subst same; exact State.entry_setEntry_ne s k e (h rfl)
    · exact State.entry_setEntry_kind s n m e same
  rcases releaseEntry_cases c k n s with ⟨-, e⟩ | ⟨-, ts, e⟩ | ⟨copy, -, e⟩ | ⟨copy, w, rest, -, e⟩ <;> rw [e]
  · exact (foldl_mapTxn_entry l m _ _ _).trans (written _)
  · exact written _
  · exact (State.entry_touch _ k l n m).trans (written _)

/-- The entry itself: emptied, unlocked or passed on. -/
theorem releaseEntry_entry : (releaseEntry c k n s).1.entry k n = s.entry k n ∧ ¬ HeldBy c (s.entry k n) ∨
    EmptiedBy c (s.entry k n) ∧ (releaseEntry c k n s).1.entry k n = .empty ∨
    (∃ copy, s.entry k n = .valid copy (some c) [] ∧ (releaseEntry c k n s).1.entry k n = .valid copy none []) ∨
    ∃ copy w rest, s.entry k n = .valid copy (some c) (w :: rest) ∧
      (releaseEntry c k n s).1.entry k n = .valid copy (some w) rest := by
  rcases releaseEntry_cases c k n s with ⟨free, e⟩ | ⟨emptied, ts, e⟩ | ⟨copy, was, e⟩ |
    ⟨copy, w, rest, was, e⟩ <;> rw [e]
  · exact .inl ⟨rfl, free⟩
  · exact .inr (.inl ⟨emptied, (foldl_mapTxn_entry k n _ _ _).trans (State.entry_setEntry s k n _ emptied.lt)⟩)
  · have small := lt_of_entry (s := s) (k := k) (n := n) (by rw [was]; nofun)
    exact .inr (.inr (.inl ⟨copy, was, State.entry_setEntry s k n _ small⟩))
  · have small := lt_of_entry (s := s) (k := k) (n := n) (by rw [was]; nofun)
    exact .inr (.inr (.inr ⟨copy, w, rest, was,
      (State.entry_touch _ k k n n).trans (State.entry_setEntry s k n _ small)⟩))

/-- No one comes on a wait list. -/
theorem releaseEntry_waiters (m : Nat) :
    waiters ((releaseEntry c k n s).1.entry k m) ⊆ waiters (s.entry k m) := by
  by_cases same : n = m
  · subst same
    rcases releaseEntry_entry c k n s with ⟨e, -⟩ | ⟨-, e⟩ | ⟨copy, -, e⟩ | ⟨copy, w, rest, was, e⟩ <;> rw [e]
    · exact List.Subset.refl _
    · exact List.nil_subset _
    · exact List.nil_subset _
    · rw [was]; exact List.subset_cons_self w rest
  · rw [releaseEntry_entry_other c k n s fun _ => same]
    exact List.Subset.refl _

/-- Who waited for no lock here is not touched. -/
theorem releaseEntry_txn {d : CtxId} (h : d ∉ lockWaiters (s.entry k n)) :
    (releaseEntry c k n s).1.txn d = s.txn d := by
  rcases releaseEntry_cases c k n s with ⟨-, e⟩ | ⟨-, ts, e⟩ | ⟨copy, -, e⟩ | ⟨copy, w, rest, was, e⟩ <;> rw [e]
  · exact foldl_mapTxn_txn _ _ _ d h
  · rfl
  · rw [was] at h
    exact State.txn_mapTxn_ne _ _ fun same => h (same ▸ List.mem_cons_self)

/-- The needs of the other kinds stay as they are. -/
theorem releaseEntry_needOf {l : RecordKind} (h : k ≠ l) (d : CtxId) :
    needOf l (releaseEntry c k n s).1 d = needOf l s d := by
  rcases releaseEntry_cases c k n s with ⟨-, e⟩ | ⟨-, ts, e⟩ | ⟨copy, -, e⟩ | ⟨copy, w, rest, -, e⟩ <;> rw [e]
  · exact needOf_foldl (fun x => need_setNeed_ne x _ h) _ _ d
  · rfl
  · exact needOf_mapTxn (fun x => need_setNeed_ne x _ h) _ w d

/-- What is let go of is no longer held. -/
theorem releaseEntry_unheld (h : c ∉ lockWaiters (s.entry k n)) :
    ¬ HeldBy c ((releaseEntry c k n s).1.entry k n) := by
  rcases releaseEntry_entry c k n s with ⟨e, free⟩ | ⟨-, e⟩ | ⟨copy, -, e⟩ | ⟨copy, w, rest, was, e⟩ <;> rw [e]
  · exact free
  · exact id
  · exact nofun
  · rw [was] at h
    rintro ⟨⟩
    exact h List.mem_cons_self

end

end Sys2Proof.KioskLanes

namespace Sys2Proof.KioskLanes

open Sys2Proof Sys2Proof.Machine Sys2Proof.Safety

/-! ## One record kind after another (R73) -/

/-- Two states agree on a kind's entries and on every context's need of it. -/
structure SameKind (k : RecordKind) (s t : State) : Prop where
  entry : ∀ n, t.entry k n = s.entry k n
  need : ∀ d, needOf k t d = needOf k s d

theorem SameKind.refl (k : RecordKind) (s : State) : SameKind k s s := ⟨fun _ => rfl, fun _ => rfl⟩

theorem SameKind.trans {k : RecordKind} {s t u : State} (h : SameKind k s t) (g : SameKind k t u) : SameKind k s u :=
  ⟨fun n => (g.entry n).trans (h.entry n), fun d => (g.need d).trans (h.need d)⟩

theorem sameKind_releaseNeed (c : CtxId) (x : Txn) {k l : RecordKind} (h : k ≠ l) (s : State) :
    SameKind l s (releaseNeed c x k s).1 := by
  unfold releaseNeed; split
  · next n _ =>
    exact ⟨fun m => releaseEntry_entry_other c k n s fun e => absurd e h, releaseEntry_needOf c k n s h⟩
  · exact .refl l s

theorem sameKind_releaseLock (c : CtxId) (x : Txn) {k l : RecordKind} (h : k ≠ l) (s : State) :
    SameKind l s (releaseLock c x k s).1 := by
  unfold releaseLock; split
  · exact .refl l s
  · exact sameKind_releaseNeed c x h s

/-- Of three operations that each keep to their kind, what a kind sees is its own. -/
theorem eachKind_at {f : RecordKind → State → State × List Task}
    (own : ∀ {k l}, k ≠ l → ∀ s, SameKind l s (f k s).1) (k : RecordKind) (s : State) :
    ∃ u, SameKind k s u ∧ SameKind k (f k u).1 (eachKind f s).1 ∧ (f k u).2 ⊆ (eachKind f s).2 := by
  cases k with
  | patron =>
    exact ⟨s, .refl _ s, (own (by decide) _).trans (own (by decide) _), fun t h => by simp [eachKind, h]⟩
  | title => exact ⟨_, own (by decide) s, own (by decide) _, fun t h => by simp [eachKind, h]⟩
  | item => exact ⟨_, (own (by decide) s).trans (own (by decide) _), .refl _ _, fun t h => by simp [eachKind, h]⟩

theorem releaseAll_at (c : CtxId) (x : Txn) (k : RecordKind) (s : State) : ∃ u v, SameKind k s u ∧
    SameKind k (releaseLock c x k u).1 v ∧ SameKind k (releaseNeed c x k v).1 (releaseAll c x s).1 ∧
      (releaseLock c x k u).2 ⊆ (releaseAll c x s).2 ∧ (releaseNeed c x k v).2 ⊆ (releaseAll c x s).2 := by
  obtain ⟨u, before, after, sets⟩ := eachKind_at (sameKind_releaseLock c x) k s
  obtain ⟨v, before', after', sets'⟩ := eachKind_at (sameKind_releaseNeed c x) k (eachKind (releaseLock c x) s).1
  exact ⟨u, v, before, after.trans before', after', fun t h => List.mem_append_left _ (sets h),
    fun t h => List.mem_append_right _ (sets' h)⟩

/-! ## What all releases of a context come to -/

section
variable (c : CtxId) (x : Txn) (k : RecordKind)

theorem releaseNeed_held {key : Key} {n : Nat} (h : x.need k = some ⟨key, some n, true⟩) (s : State) :
    releaseNeed c x k s = releaseEntry c k n s := by simp [releaseNeed, h]

theorem releaseNeed_none (h : ∀ key n, x.need k ≠ some ⟨key, some n, true⟩) (s : State) :
    releaseNeed c x k s = (s, []) := by
  unfold releaseNeed; split
  · next key n e => exact absurd e (h key n)
  · rfl

theorem ownsTransient_iff {key : Key} {n : Nat} {held : Bool} (s : State) :
    ownsTransient c k (some ⟨key, some n, held⟩) s = true ↔
      ∃ copy tainted, s.entry k n = .transient copy tainted c := by
  simp only [ownsTransient]
  cases s.entry k n <;> simp

theorem releaseLock_transient {key : Key} {n : Nat} {copy : Copy} {tainted : Bool}
    (h : x.need k = some ⟨key, some n, true⟩) {s : State} (e : s.entry k n = .transient copy tainted c) :
    releaseLock c x k s = (s, []) := by
  rw [releaseLock, h, if_pos ((ownsTransient_iff c k s).mpr ⟨_, _, e⟩)]

theorem releaseLock_held {key : Key} {n : Nat} (h : x.need k = some ⟨key, some n, true⟩) {s : State}
    (e : ∀ copy tainted, s.entry k n ≠ .transient copy tainted c) : releaseLock c x k s = releaseEntry c k n s := by
  rw [releaseLock, h, if_neg fun own => ?_, releaseNeed_held c x k h]
  obtain ⟨copy, tainted, is⟩ := (ownsTransient_iff c k s).mp own
  exact e copy tainted is

theorem releaseLock_none (h : ∀ key n, x.need k ≠ some ⟨key, some n, true⟩) (s : State) :
    releaseLock c x k s = (s, []) := by
  rw [releaseLock, releaseNeed_none c x k h, ite_self]

/-- An entry that a need of the context's holds is let go of once. -/
theorem releaseAll_held {key : Key} {n : Nat} (h : x.need k = some ⟨key, some n, true⟩) {s : State}
    (waits : c ∉ lockWaiters (s.entry k n)) : ∃ u, SameKind k s u ∧
      SameKind k (releaseEntry c k n u).1 (releaseAll c x s).1 ∧
        (releaseEntry c k n u).2 ⊆ (releaseAll c x s).2 := by
  obtain ⟨u, v, before, between, after, sets, sets'⟩ := releaseAll_at c x k s
  rw [releaseNeed_held c x k h] at after sets'
  by_cases own : ∃ copy tainted, s.entry k n = .transient copy tainted c
  · obtain ⟨copy, tainted, e⟩ := own
    rw [releaseLock_transient c x k h ((before.entry n).trans e)] at between
    exact ⟨v, before.trans between, after, sets'⟩
  · have lock : ∀ copy tainted, u.entry k n ≠ .transient copy tainted c := fun copy tainted e =>
      own ⟨copy, tainted, (before.entry n).symm.trans e⟩
    rw [releaseLock_held c x k h lock] at between sets
    have unheld : ¬ HeldBy c (v.entry k n) := by
      rw [between.entry n]
      exact releaseEntry_unheld c k n u (by rwa [before.entry n])
    rw [releaseEntry_of_unheld c k n v unheld] at after
    exact ⟨u, before, between.trans after, sets⟩

/-- Where no need of the kind holds an entry, the kind's entries and needs stay. -/
theorem releaseAll_none (h : ∀ key n, x.need k ≠ some ⟨key, some n, true⟩) (s : State) :
    SameKind k s (releaseAll c x s).1 := by
  obtain ⟨u, v, before, between, after, -, -⟩ := releaseAll_at c x k s
  rw [releaseLock_none c x k h] at between
  rw [releaseNeed_none c x k h] at after
  exact (before.trans between).trans after

/-- What no need of the context's holds is left alone. -/
theorem releaseAll_entry_other {n : Nat} (h : ∀ key, x.need k ≠ some ⟨key, some n, true⟩) {s : State}
    (waits : ∀ m, c ∉ lockWaiters (s.entry k m)) : (releaseAll c x s).1.entry k n = s.entry k n := by
  by_cases holds : ∃ key m, x.need k = some ⟨key, some m, true⟩
  · obtain ⟨key, m, held⟩ := holds
    obtain ⟨u, before, after, -⟩ := releaseAll_held c x k held (waits m)
    rw [after.entry n, releaseEntry_entry_other c k m u fun _ e => h key (by rw [held, e]), before.entry n]
  · exact (releaseAll_none c x k (fun key m e => holds ⟨key, m, e⟩) s).entry n

end

section
variable (c : CtxId) (x : Txn)

theorem releaseNeed_lists (k : RecordKind) (s : State) :
    (∀ l, ((releaseNeed c x k s).1.pool l).queue = (s.pool l).queue) ∧ (releaseNeed c x k s).1.au = s.au := by
  unfold releaseNeed; split
  · exact releaseEntry_lists c k _ s
  · exact ⟨fun _ => rfl, rfl⟩

theorem releaseLock_lists (k : RecordKind) (s : State) :
    (∀ l, ((releaseLock c x k s).1.pool l).queue = (s.pool l).queue) ∧ (releaseLock c x k s).1.au = s.au := by
  unfold releaseLock; split
  · exact ⟨fun _ => rfl, rfl⟩
  · exact releaseNeed_lists c x k s

/-- Letting go of entries changes the queues and AU's lists in no way. -/
theorem releaseAll_lists (s : State) :
    (∀ l, ((releaseAll c x s).1.pool l).queue = (s.pool l).queue) ∧ (releaseAll c x s).1.au = s.au := by
  have lock := releaseLock_lists c x
  have need := releaseNeed_lists c x
  constructor
  · intro l
    exact ((need _ _).1 l).trans (((need _ _).1 l).trans (((need _ _).1 l).trans
      (((lock _ _).1 l).trans (((lock _ _).1 l).trans ((lock _ _).1 l)))))
  · exact (need _ _).2.trans ((need _ _).2.trans ((need _ _).2.trans
      ((lock _ _).2.trans ((lock _ _).2.trans (lock _ _).2))))

end

/-! ## A context let go of (R53, R57, R73, R76) -/

section
variable (c : CtxId) (x : Txn) (s : State) (new : Option Txn)

/-- Off every list, before it lets go of its entries. -/
def offLists : State := (leaveLists c s).setTxn c new

theorem offLists_entry (k : RecordKind) (n : Nat) : (offLists c s new).entry k n = (s.entry k n).dropWaiter c :=
  leaveLists_entry c s k n

theorem offLists_waiters (k : RecordKind) (n : Nat) : c ∉ waiters ((offLists c s new).entry k n) := by
  rw [offLists_entry, dropWaiter_waiters]
  simp

theorem offLists_needOf {d : CtxId} (h : d ≠ c) (k : RecordKind) : needOf k (offLists c s new) d = needOf k s d := by
  rw [needOf, offLists, State.txn_setTxn_ne _ _ h.symm, leaveLists_txn, needOf]

theorem offLists_locks (k : RecordKind) (n : Nat) : c ∉ lockWaiters ((offLists c s new).entry k n) :=
  fun h => offLists_waiters c s new k n (lockWaiters_subset _ h)

/-- An entry that a need of the context's holds is let go of, off every list. -/
theorem offLists_held {k : RecordKind} {key : Key} {n : Nat} (need : x.need k = some ⟨key, some n, true⟩) :
    ∃ u, u.entry k n = (s.entry k n).dropWaiter c ∧ (∀ d, needOf k u d = needOf k (offLists c s new) d) ∧
      SameKind k (releaseEntry c k n u).1 (releaseAll c x (offLists c s new)).1 ∧
      (releaseEntry c k n u).2 ⊆ (releaseAll c x (offLists c s new)).2 := by
  obtain ⟨u, before, after, sets⟩ := releaseAll_held c x k need (offLists_locks c s new k n)
  exact ⟨u, (before.entry n).trans (offLists_entry c s new k n), before.need, after, sets⟩

theorem offLists_stale {k : RecordKind} {key : Key} {n : Nat} {copy : Copy} {ws : List CtxId}
    (need : x.need k = some ⟨key, some n, true⟩) (e : s.entry k n = .valid copy (some c) ws)
    (stale : copy.stale ≠ none) :
    let r := releaseAll c x (offLists c s new)
    r.1.entry k n = .empty ∧ .retry k ∈ r.2 ∧ ∀ w ∈ ws, w ≠ c → .resume w ∈ r.2 := by
  obtain ⟨u, eu, -, after, sets⟩ := offLists_held c x s new need
  rw [e] at eu
  have emptied := releaseEntry_stale c k n u eu stale
  have small := lt_of_entry (s := u) (k := k) (n := n) (by rw [eu]; nofun)
  rw [emptied] at after sets
  refine ⟨?_, sets (by simp), fun w hw other => sets (by simp [hw, other])⟩
  rw [after.entry n]
  exact (foldl_mapTxn_entry k n _ _ _).trans (State.entry_setEntry u k n _ small)

theorem offLists_unlocked {k : RecordKind} {key : Key} {n : Nat} {copy : Copy} {ws : List CtxId}
    (need : x.need k = some ⟨key, some n, true⟩) (e : s.entry k n = .valid copy (some c) ws)
    (good : copy.stale = none) (alone : ∀ w ∈ ws, w = c) :
    let r := releaseAll c x (offLists c s new)
    r.1.entry k n = .valid copy none [] ∧ .retry k ∈ r.2 := by
  obtain ⟨u, eu, -, after, sets⟩ := offLists_held c x s new need
  have nobody : ws.filter (· ≠ c) = [] := List.filter_eq_nil_iff.mpr fun w hw => by simp [alone w hw]
  rw [e, Entry.dropWaiter, nobody] at eu
  have small := lt_of_entry (s := u) (k := k) (n := n) (by rw [eu]; nofun)
  rw [releaseEntry_unlocked c k n u eu good] at after sets
  exact ⟨(after.entry n).trans (State.entry_setEntry u k n _ small), sets (by simp)⟩

theorem offLists_passed {k : RecordKind} {key : Key} {n : Nat} {copy : Copy} {ws rest : List CtxId} {w : CtxId}
    (need : x.need k = some ⟨key, some n, true⟩) (e : s.entry k n = .valid copy (some c) ws)
    (good : copy.stale = none) (waiting : ws.filter (· ≠ c) = w :: rest) :
    let r := releaseAll c x (offLists c s new)
    r.1.entry k n = .valid copy (some w) rest ∧ .resume w ∈ r.2 ∧
      ∀ y, s.txn w = some y → ∃ z, r.1.txn w = some z ∧ z.need k = (y.need k).map fun m => ⟨m.key, some n, true⟩ := by
  obtain ⟨u, eu, needs, after, sets⟩ := offLists_held c x s new need
  have other : w ≠ c := by
    have h : w ∈ ws.filter (· ≠ c) := by rw [waiting]; exact List.mem_cons_self
    simpa using (List.mem_filter.mp h).2
  rw [e, Entry.dropWaiter, waiting] at eu
  have small := lt_of_entry (s := u) (k := k) (n := n) (by rw [eu]; nofun)
  rw [releaseEntry_passed c k n u eu good] at after sets
  refine ⟨?_, sets (by simp), fun y hy => ?_⟩
  · rw [after.entry n]
    exact (State.entry_touch _ k k n n).trans (State.entry_setEntry u k n _ small)
  · have was : needOf k u w = some (y.need k) := by rw [needs w, offLists_needOf c s new other, needOf, hy]; rfl
    have now := after.need w
    obtain ⟨v, hv, same⟩ := Option.map_eq_some_iff.mp was
    rw [needOf, needOf, State.txn_mapTxn, State.touch_txn, State.setEntry_txn, hv] at now
    obtain ⟨z, hz, found⟩ := Option.map_eq_some_iff.mp now
    exact ⟨z, hz, found.trans ((need_setNeed v k _).trans (congrArg _ same))⟩

theorem offLists_owned {k : RecordKind} {key : Key} {n : Nat} {copy : Copy} {tainted : Bool}
    (need : x.need k = some ⟨key, some n, true⟩) (e : s.entry k n = .transient copy tainted c) :
    let r := releaseAll c x (offLists c s new)
    r.1.entry k n = .empty ∧ .retry k ∈ r.2 := by
  obtain ⟨u, eu, -, after, sets⟩ := offLists_held c x s new need
  rw [e] at eu
  have small := lt_of_entry (s := u) (k := k) (n := n) (by rw [eu]; nofun)
  rw [releaseEntry_transient c k n u eu] at after sets
  exact ⟨(after.entry n).trans (State.entry_setEntry u k n _ small), sets (by simp)⟩

theorem offLists_other {k : RecordKind} {n : Nat} (h : ∀ key, x.need k ≠ some ⟨key, some n, true⟩) :
    (releaseAll c x (offLists c s new)).1.entry k n = (s.entry k n).dropWaiter c :=
  (releaseAll_entry_other c x k h (offLists_locks c s new k)).trans (offLists_entry c s new k n)

theorem onNoList_offLists : OnNoList (releaseAll c x (offLists c s new)).1 c := by
  obtain ⟨queues, au⟩ := releaseAll_lists c x (offLists c s new)
  refine (onNoList_iff _ c).mpr ⟨fun k h => ?_, ?_, ?_, fun k n h => ?_⟩
  · rw [queues k, offLists, State.setTxn_pool, leaveLists_queue] at h
    simp at h
  · rw [au]; simp [offLists, leaveLists]
  · rw [au]; simp [offLists, leaveLists]
  by_cases holds : ∃ key, x.need k = some ⟨key, some n, true⟩
  · obtain ⟨key, need⟩ := holds
    obtain ⟨u, eu, -, after, -⟩ := offLists_held c x s new need
    rw [after.entry n] at h
    have before := releaseEntry_waiters c k n u n h
    rw [eu, dropWaiter_waiters] at before
    simp at before
  · rw [offLists_other c x s new fun key e => holds ⟨key, e⟩, dropWaiter_waiters] at h
    simp at h

/-- All that a context off every list holds, it lets go of. -/
theorem released_releaseAll : Released c x s (releaseAll c x (offLists c s new)) where
  stale _ _ _ _ _ need e stale := offLists_stale c x s new need e stale
  unlocked _ _ _ _ _ need e good alone := offLists_unlocked c x s new need e good alone
  passed _ _ _ _ _ _ _ need e good waiting := offLists_passed c x s new need e good waiting
  owned _ _ _ _ _ need e := offLists_owned c x s new need e
  others _ _ h := offLists_other c x s new h
  lists := onNoList_offLists c x s new

/-- What a need of the context's held, the context holds no more. -/
theorem offLists_unheld {k : RecordKind} {key : Key} {n : Nat} (need : x.need k = some ⟨key, some n, true⟩) :
    ¬ HeldBy c ((releaseAll c x (offLists c s new)).1.entry k n) := by
  obtain ⟨u, eu, -, after, -⟩ := offLists_held c x s new need
  rw [after.entry n]
  refine releaseEntry_unheld c k n u fun h => ?_
  rw [eu, dropWaiter_lockWaiters] at h
  simp at h

/-- A TRANSIENT or stale entry that a need of the context's held is EMPTY. -/
theorem offLists_emptied {k : RecordKind} {key : Key} {n : Nat} (need : x.need k = some ⟨key, some n, true⟩)
    (h : EmptiedBy c (s.entry k n)) : (releaseAll c x (offLists c s new)).1.entry k n = .empty := by
  cases e : s.entry k n with
  | empty => rw [e] at h; exact h.elim
  | filling key ws => rw [e] at h; exact h.elim
  | transient copy tainted o =>
    rw [e] at h
    obtain rfl : o = c := h
    exact (offLists_owned o x s new need e).1
  | valid copy o ws =>
    rw [e] at h
    obtain ⟨rfl, stale⟩ := h
    exact (offLists_stale c x s new need e stale).1

end

end Sys2Proof.KioskLanes

namespace Sys2Proof.KioskLanes

open Sys2Proof Sys2Proof.Machine Sys2Proof.Safety

/-! ## What goes on without a context -/

/-- What the others can do to an entry: a context comes neither on its wait list nor to hold it, no record comes where
none was, and what the context would empty stays the context's to empty. -/
structure Spares (c : CtxId) (e e' : Entry) : Prop where
  waits : c ∉ waiters e → c ∉ waiters e'
  locks : c ∉ lockWaiters e → c ∉ lockWaiters e'
  unheld : c ∉ lockWaiters e → ¬ HeldBy c e → ¬ HeldBy c e'
  vacant : Vacant e → Vacant e'
  emptied : EmptiedBy c e → EmptiedBy c e'

theorem Spares.refl (c : CtxId) (e : Entry) : Spares c e e := ⟨id, id, fun _ => id, id, id⟩

theorem Spares.trans {c : CtxId} {e f g : Entry} (h : Spares c e f) (h' : Spares c f g) : Spares c e g :=
  ⟨fun w => h'.waits (h.waits w), fun w => h'.locks (h.locks w),
    fun w u => h'.unheld (h.locks w) (h.unheld w u), fun v => h'.vacant (h.vacant v), fun v => h'.emptied (h.emptied v)⟩

/-- What the other contexts' events can do: the context's card stays, with it the needs for whose kind it waits for no
lock; it comes on no list; and each entry is spared. -/
structure Without (c : CtxId) (s t : State) : Prop where
  card : cardOf t c = cardOf s c
  needs : ∀ k, (∀ n, c ∉ lockWaiters (s.entry k n)) → needOf k t c = needOf k s c
  queues : ∀ k, c ∉ (s.pool k).queue → c ∉ (t.pool k).queue
  list : c ∉ s.au.list → c ∉ t.au.list
  waits : c ∉ s.au.waits → c ∉ t.au.waits
  entries : ∀ k n, Spares c (s.entry k n) (t.entry k n)

theorem Without.refl (c : CtxId) (s : State) : Without c s s :=
  ⟨rfl, fun _ _ => rfl, fun _ => id, id, id, fun _ _ => .refl c _⟩

theorem Without.trans {c : CtxId} {s t u : State} (h : Without c s t) (g : Without c t u) : Without c s u where
  card := g.card.trans h.card
  needs k free := (g.needs k fun n => (h.entries k n).locks (free n)).trans (h.needs k free)
  queues k q := g.queues k (h.queues k q)
  list q := g.list (h.list q)
  waits q := g.waits (h.waits q)
  entries k n := (h.entries k n).trans (g.entries k n)

/-- A context that is FREE stays FREE without it. -/
theorem Without.free {c : CtxId} {s t : State} (h : Without c s t) (free : s.txn c = none) : t.txn c = none := by
  have card := h.card
  rw [cardOf, cardOf, free] at card
  exact Option.map_eq_none_iff.mp card

theorem Without.onNoList {c : CtxId} {s t : State} (h : Without c s t) (g : OnNoList s c) : OnNoList t c := by
  obtain ⟨queues, list, waits, entries⟩ := (onNoList_iff s c).mp g
  exact (onNoList_iff t c).mpr ⟨fun k => h.queues k (queues k), h.list list, h.waits waits,
    fun k n => (h.entries k n).waits (entries k n)⟩

/-- A change outside the contexts, the cache and AU. -/
theorem Without.of_same {c : CtxId} {s t : State} (contexts : t.dct.contexts = s.dct.contexts) (rc : t.rc = s.rc)
    (au : t.au = s.au) : Without c s t := by
  have txn : t.txn c = s.txn c := by rw [State.txn, State.ctx, contexts]; rfl
  have pool : ∀ k, t.pool k = s.pool k := fun k => by rw [State.pool, rc]; rfl
  refine ⟨by rw [cardOf, txn]; rfl, fun k _ => by rw [needOf, txn]; rfl, fun k => by rw [pool k]; exact id,
    by rw [au]; exact id, by rw [au]; exact id, fun k n => ?_⟩
  rw [show t.entry k n = s.entry k n from congrArg (·.entry n) (pool k)]
  exact .refl c _

/-- A change of another context alone. -/
theorem without_setTxn {c d : CtxId} (h : d ≠ c) (s : State) (x : Option Txn) : Without c s (s.setTxn d x) :=
  have txn := State.txn_setTxn_ne s x h
  ⟨by rw [cardOf, txn]; rfl, fun k _ => by rw [needOf, txn]; rfl, fun _ => id, id, id, fun _ _ => .refl c _⟩

/-- A change of one pool. -/
theorem without_setPool {c : CtxId} (s : State) (k : RecordKind) (p : Pool)
    (queue : c ∉ (s.pool k).queue → c ∉ p.queue) (entries : ∀ n, Spares c (s.entry k n) (p.entry n)) :
    Without c s (s.setPool k p) := by
  refine ⟨rfl, fun _ _ => rfl, fun l => ?_, id, id, fun l n => ?_⟩
  · by_cases same : k = l
    · subst same; rwa [State.pool_setPool]
    · rw [State.pool_setPool_ne s p same]; exact id
  · by_cases same : k = l
    · subst same
      rw [show (s.setPool k p).entry k n = p.entry n from congrArg (·.entry n) (State.pool_setPool s k p)]
      exact entries n
    · rw [show (s.setPool k p).entry l n = s.entry l n from congrArg (·.entry n) (State.pool_setPool_ne s p same)]
      exact .refl c _

/-- A pool with one entry changed. -/
theorem spares_setEntry {c : CtxId} {p : Pool} {n : Nat} {e : Entry} (h : Spares c (p.entry n) e) (m : Nat) :
    Spares c (p.entry m) ((p.setEntry n e).entry m) := by
  unfold Pool.entry Pool.setEntry at *
  simp only [List.getD_eq_getElem?_getD, List.getElem?_set] at *
  split
  · next same =>
    subst same
    split
    · exact h
    · next beyond => simp [Spares.refl, beyond]
  · exact .refl c _

theorem without_setEntry {c : CtxId} (s : State) (k : RecordKind) (n : Nat) (e : Entry)
    (h : Spares c (s.entry k n) e) : Without c s (s.setEntry k n e) :=
  without_setPool s k _ id (spares_setEntry h)

theorem without_touch (c : CtxId) (s : State) (k : RecordKind) (n : Nat) : Without c s (s.touch k n) :=
  without_setPool s k _ id fun _ => .refl c _

/-! ## Entries changed by others -/

theorem heldBy_unique {c d : CtxId} {e : Entry} (h : HeldBy c e) (g : HeldBy d e) : c = d := by
  cases e with
  | empty => exact h.elim
  | filling key ws => exact h.elim
  | transient copy tainted o => exact Eq.trans (Eq.symm h) g
  | valid copy o ws => exact Option.some.inj (Eq.trans (Eq.symm h) g)

section
variable {c d : CtxId} (h : d ≠ c)
include h

theorem spares_addWaiter (e : Entry) : Spares c e (e.addWaiter d) := by
  have joined : ∀ ws : List CtxId, c ∉ ws → c ∉ (if d ∈ ws then ws else ws ++ [d]) := fun ws free => by
    split
    · exact free
    · simpa [free] using h.symm
  cases e with
  | empty => exact .refl c _
  | transient copy tainted o => exact .refl c _
  | filling key ws => exact ⟨joined ws, fun _ => List.not_mem_nil, fun _ => id, id, id⟩
  | valid copy o ws => exact ⟨joined ws, joined ws, fun _ => id, id, id⟩

omit h in
theorem spares_dropWaiter (e : Entry) : Spares c e (e.dropWaiter d) where
  waits free := by rw [dropWaiter_waiters]; exact fun w => free (List.mem_of_mem_filter w)
  locks free := by rw [dropWaiter_lockWaiters]; exact fun w => free (List.mem_of_mem_filter w)
  unheld _ free := by rwa [dropWaiter_heldBy]
  vacant := (dropWaiter_vacant d e).mpr
  emptied := (dropWaiter_emptiedBy d c e).mpr

/-- An EMPTY entry, or one that can be evicted, taken for another context's fill. -/
theorem spares_filling {e : Entry} (key : Key) (room : e = .empty ∨ e.evictable = true) :
    Spares c e (.filling key [d]) := by
  refine ⟨fun _ => by simpa [waiters] using h.symm, fun _ => List.not_mem_nil, fun _ _ => id, fun _ => trivial,
    fun emptied => ?_⟩
  rcases room with rfl | evict
  · exact emptied.elim
  · unfold Entry.evictable at evict
    split at evict
    · cases emptied.1
    · cases evict

theorem spares_granted (copy : Copy) (ws : List CtxId) : Spares c (.valid copy none ws) (.valid copy (some d) ws) :=
  ⟨id, id, fun _ _ held => h (Option.some.inj held), id, fun emptied => by cases emptied.1⟩

theorem spares_releaseEntry (k : RecordKind) (n : Nat) (s : State) (m : Nat) :
    Spares c (s.entry k m) ((releaseEntry d k n s).1.entry k m) := by
  by_cases same : n = m
  · subst same
    have other : EmptiedBy c (s.entry k n) → ¬ HeldBy d (s.entry k n) := fun emptied held =>
      h (heldBy_unique held emptied.held)
    rcases releaseEntry_entry d k n s with ⟨e, -⟩ | ⟨emptied, e⟩ | ⟨copy, was, e⟩ | ⟨copy, w, rest, was, e⟩ <;> rw [e]
    · exact .refl c _
    · exact ⟨fun _ => List.not_mem_nil, fun _ => List.not_mem_nil, fun _ _ => id, fun _ => trivial,
        fun mine => other mine emptied.held⟩
    · rw [was] at other ⊢
      exact ⟨id, id, fun _ _ => nofun, id, fun mine => absurd rfl (other mine)⟩
    · rw [was] at other ⊢
      exact ⟨List.not_mem_of_not_mem_cons, List.not_mem_of_not_mem_cons,
        fun free _ held => List.ne_of_not_mem_cons free (Option.some.inj held).symm, id,
        fun mine => absurd rfl (other mine)⟩
  · rw [releaseEntry_entry_other d k n s fun _ => same]
    exact .refl c _

end

/-! ## The operations of others -/

section
variable {c d : CtxId} (h : d ≠ c)
include h

theorem without_releaseEntry (k : RecordKind) (n : Nat) (s : State) : Without c s (releaseEntry d k n s).1 := by
  obtain ⟨queues, au⟩ := releaseEntry_lists d k n s
  refine ⟨(hushed_releaseEntry d k n s).cards c, fun l free => ?_, fun l => by rw [queues l]; exact id,
    by rw [au]; exact id, by rw [au]; exact id, fun l m => ?_⟩
  · by_cases same : k = l
    · subst same; rw [needOf, releaseEntry_txn d k n s (free n)]; rfl
    · exact releaseEntry_needOf d k n s same c
  · by_cases same : k = l
    · subst same; exact spares_releaseEntry h k n s m
    · rw [releaseEntry_entry_other d k n s fun e => absurd e same]; exact .refl c _

theorem without_releaseNeed (x : Txn) (k : RecordKind) (s : State) : Without c s (releaseNeed d x k s).1 := by
  unfold releaseNeed; split
  · exact without_releaseEntry h k _ s
  · exact .refl c s

theorem without_releaseLock (x : Txn) (k : RecordKind) (s : State) : Without c s (releaseLock d x k s).1 := by
  unfold releaseLock; split
  · exact .refl c s
  · exact without_releaseNeed h x k s

theorem without_releaseAll (x : Txn) (s : State) : Without c s (releaseAll d x s).1 :=
  have lock := without_releaseLock h x
  have need := without_releaseNeed h x
  (((lock _ _).trans (lock _ _)).trans (lock _ _)).trans (((need _ _).trans (need _ _)).trans (need _ _))

omit h in
theorem without_leaveLists (s : State) : Without c s (leaveLists d s) where
  card := rfl
  needs _ _ := rfl
  queues k free := by rw [leaveLists_queue]; exact fun w => free (List.mem_of_mem_filter w)
  list free := fun w => free (List.mem_of_mem_filter w)
  waits free := fun w => free (List.mem_of_mem_filter w)
  entries k n := by rw [leaveLists_entry]; exact spares_dropWaiter _

theorem without_freeCtx (s : State) : Without c s (freeCtx d s).1 := by
  unfold freeCtx; split
  · exact .refl c s
  · next x _ => exact ((without_leaveLists s).trans (without_setTxn h _ none)).trans (without_releaseAll h x _)

theorem without_abortCtx (s : State) : Without c s (abortCtx d s).1 := by
  unfold abortCtx; repeat' split
  · exact .refl c s
  · exact without_freeCtx h s
  · exact without_freeCtx h s
  · exact without_setTxn h s _

end

/-! ## Quiet tasks without a context that is FREE -/

theorem without_fetchDue (c : CtxId) (i : SlotId) (a b : Nat) (s : State) : Without c s (fetchDue i a b s) := by
  unfold fetchDue; dsimp only; repeat' split
  all_goals exact .of_same rfl rfl rfl

theorem without_giveFill (c : CtxId) (w : WaitingFill) (s : State) : Without c s (giveFill w s) := by
  unfold giveFill; split
  · refine Without.trans ?_ (without_fetchDue c _ _ _ _)
    exact .of_same rfl rfl rfl
  · exact .of_same rfl rfl rfl

/-- The entry an allocation takes is EMPTY or can be evicted (R65, R66). -/
theorem room_entry {p : Pool} {n : Nat} (h : p.room = some n) : p.entry n = .empty ∨ (p.entry n).evictable = true := by
  unfold Pool.room at h
  split at h
  · next m first =>
    cases h
    obtain ⟨small, empty, -⟩ := List.findIdx?_eq_some_iff_getElem.mp first
    rw [decide_eq_true_eq] at empty
    exact .inl ((List.getD_eq_getElem _ _ small).trans empty)
  · exact .inr (List.find?_some (p := fun n => (p.entry n).evictable) h)

section
variable {c d : CtxId} (h : d ≠ c)
include h

theorem without_lookup (k : RecordKind) (key : Key) (s : State) : Without c s (lookup d k key s).1 := by
  have leave : ∀ p : Pool, c ∉ p.queue → c ∉ (p.leaveQueue d).queue := fun p free w =>
    free (List.mem_of_mem_filter w)
  unfold lookup; dsimp only; split
  · next n _ =>
    split
    · exact without_setPool s k _ (leave _) fun _ => .refl c _
    · exact without_setPool s k _ (leave _) (spares_setEntry (spares_addWaiter h _))
  split
  · next n room =>
    have taken := spares_setEntry (spares_filling h key (room_entry room))
    exact (without_setPool s k _ (leave (((s.pool k).setEntry n _).touch n)) taken).trans (without_giveFill c _ _)
  · refine without_setPool s k _ (fun free => ?_) fun n => ?_
    · unfold Pool.joinQueue; split
      · exact free
      · simpa [free] using h.symm
    · unfold Pool.joinQueue; split <;> exact .refl c _

theorem without_enterDecide (x : Txn) (s : State) : Without c s (enterDecide d x s) := by
  refine (without_setTxn h s (some { x with state := .decide, day := some s.um.day, ruleWait := none })).trans
    ⟨rfl, fun _ _ => rfl, fun _ => id, fun free => ?_, id, fun _ _ => .refl c _⟩
  unfold enterDecide; dsimp only; split
  · exact free
  · simpa [h.symm] using free

theorem without_resettle (x : Txn) (item : Image) (s : State) : Without c s (resettle d x item s).1 :=
  (((without_setTxn h s _).trans (without_releaseLock h x .patron _)).trans
    (without_releaseNeed h x .title _)).trans (without_releaseLock h x .item _)

theorem without_allLocked (x : Txn) (s : State) : Without c s (allLocked d x s).1 := by
  unfold allLocked; repeat' split
  · exact without_enterDecide h x s
  · exact without_resettle h x _ s
  · exact without_setTxn h s _
  · exact without_enterDecide h x s

theorem without_requestLock (x : Txn) (k : RecordKind) (key : Key) (n : Nat) (s : State) :
    Without c s (requestLock d x k key n s).1 := by
  unfold requestLock; dsimp only
  split
  · next copy o ws e =>
    split
    · exact without_setTxn h s _
    split
    · refine ((without_setTxn h s _).trans (without_setEntry _ k n _ ?_)).trans (without_touch c _ k n)
      rw [show (s.setTxn d _).entry k n = s.entry k n from rfl, e]; exact spares_granted h copy ws
    split
    · exact without_setTxn h s _
    · refine without_setEntry s k n _ ?_
      rw [e]; exact spares_addWaiter h _
  · split <;> exact without_setTxn h s _
  · exact without_setTxn h s _
  · exact without_setTxn h s _

theorem without_copyPatron (x : Txn) (s : State) : Without c s (copyPatron d x s).1 := by
  unfold copyPatron; repeat' split
  · exact (without_touch c s .patron _).trans (without_enterDecide h _ _)
  · exact without_setTxn h s _
  · exact .refl c s

theorem without_resumeCtx (s : State) : Without c s (resumeCtx d s).1 := by
  unfold resumeCtx
  split
  · exact .refl c s
  split
  · exact .refl c s
  split
  · split <;> exact without_setTxn h s _
  split
  · next k key _ =>
    have found := without_lookup h k key s
    split
    · next s' n e => rw [e] at found; exact found.trans (without_setTxn h s' _)
    · next s' e => rw [e] at found; exact found
  split
  · exact without_copyPatron h _ s
  split
  · exact without_requestLock h _ _ _ _ s
  · exact without_allLocked h _ s

end

/-- A FREE context takes no part in quiet tasks. -/
theorem without_doTask {c : CtxId} {s : State} (free : s.txn c = none) (t : Task) (q : t.quiet = true) :
    Without c s (doTask t s).1 := by
  cases t with
  | regather d => cases q
  | retry k => exact .refl c s
  | resume d =>
    by_cases own : d = c
    · subst own
      rw [doTask, resumeCtx, free]
      exact .refl d s
    · exact without_resumeCtx own s

theorem without_runTasks {c : CtxId} (fuel : Nat) (ts : List Task) (q : ∀ t ∈ ts, t.quiet = true) {s : State}
    (free : s.txn c = none) : Without c s (runTasks fuel ts s) := by
  induction fuel generalizing ts s with
  | zero => exact .refl c s
  | succ n ih =>
    cases ts with
    | nil => exact .refl c s
    | cons t ts =>
      have one := without_doTask free t (q t List.mem_cons_self)
      have set := (hushed_doTask t (q t List.mem_cons_self) s).2
      exact one.trans (ih _ (fun u hu => (List.mem_append.mp hu).elim (set u) fun g => q u (List.mem_cons_of_mem t g))
        (one.free free))

theorem without_settleQuiesce (c : CtxId) (s : State) : Without c s (settleQuiesce s) := by
  unfold settleQuiesce answer pumpReplies
  dsimp only
  repeat' split
  all_goals exact .of_same rfl rfl rfl

/-- An event whose tasks are quiet goes on without a FREE context. -/
theorem without_settle {c : CtxId} (r : State × List Task) (q : ∀ t ∈ r.2, t.quiet = true)
    (free : r.1.txn c = none) : Without c r.1 (settle r) :=
  (without_runTasks _ _ q free).trans (without_settleQuiesce c _)

end Sys2Proof.KioskLanes

namespace Sys2Proof.KioskLanes

open Sys2Proof Sys2Proof.Machine Sys2Proof.Safety

/-! ## One context's turn in an abort (R59) -/

theorem without_abortWhere (test : Txn → Bool) {c : CtxId} {cs : List CtxId} (h : c ∉ cs) (s : State) :
    Without c s (abortWhere test cs s).1 := by
  induction cs generalizing s with
  | nil => exact .refl c s
  | cons d cs ih =>
    obtain ⟨other, rest⟩ := not_or.mp (List.mem_cons.not.mp h)
    unfold abortWhere; split
    · exact (without_abortCtx (Ne.symm other) s).trans (ih rest _)
    · exact ih rest s

/-- What an abort does at a context's turn. -/
def abortTurn (test : Txn → Bool) (c : CtxId) (s : State) : State :=
  if (s.txn c).any test then (abortCtx c s).1 else s

/-- An abort comes to each context once; before and after that it goes on without the context. -/
theorem abortWhere_turn (test : Txn → Bool) {c : CtxId} {cs : List CtxId} (h : c ∈ cs) (once : cs.Nodup) (s : State) :
    ∃ u, Without c s u ∧ Without c (abortTurn test c u) (abortWhere test cs s).1 := by
  induction cs generalizing s with
  | nil => cases h
  | cons d cs ih =>
    obtain ⟨first, once⟩ := List.nodup_cons.mp once
    have turn : (abortWhere test (d :: cs) s).1 = (abortWhere test cs (abortTurn test d s)).1 := by
      rw [abortWhere, abortTurn]; split <;> rfl
    rw [turn]
    rcases List.mem_cons.mp h with rfl | later
    · exact ⟨s, .refl c s, without_abortWhere test first _⟩
    · have other : d ≠ c := fun same => first (same ▸ later)
      have before : Without c s (abortTurn test d s) := by
        unfold abortTurn; split
        · exact without_abortCtx other s
        · exact .refl c s
      obtain ⟨u, between, after⟩ := ih later once (abortTurn test d s)
      exact ⟨u, before.trans between, after⟩

theorem abortCtx_freed {c : CtxId} {x : Txn} {s : State} (h : s.txn c = some x) (running : x.state ≠ .commit) :
    abortCtx c s = releaseAll c x (offLists c s none) := by
  have free : freeCtx c s = releaseAll c x (offLists c s none) := by simp only [freeCtx, h, offLists]
  simp only [abortCtx, h]
  split
  · exact free
  · exact free
  · next commit => exact absurd commit running

theorem abortCtx_commit {c : CtxId} {x : Txn} {s : State} (h : s.txn c = some x) (commit : x.state = .commit) :
    abortCtx c s = (s.setTxn c (some { x with abandoned := true }), []) := by
  simp only [abortCtx, h, commit]

/-- A context off every list is FREE where it was made so. -/
theorem txn_offLists (c : CtxId) (x : Txn) (s : State) : (releaseAll c x (offLists c s none)).1.txn c = none := by
  have card := (hushed_releaseAll c x (offLists c s none)).cards c
  rw [cardOf, cardOf, offLists, State.txn_setTxn] at card
  exact Option.map_eq_none_iff.mp card

theorem abortWhere_none (test : Txn → Bool) (cs : List CtxId) (s : State) (h : ∀ d, (s.txn d).any test = false) :
    abortWhere test cs s = (s, []) := by
  induction cs with
  | nil => rfl
  | cons d cs ih => rw [abortWhere, if_neg (by rw [h d]; exact Bool.false_ne_true), ih]

theorem txn_of_card {c : CtxId} {s u : State} {x : Txn} (h : cardOf u c = cardOf s c) (busy : s.txn c = some x) :
    ∃ y, u.txn c = some y ∧ card y = card x := by
  rw [cardOf, cardOf, busy] at h
  exact Option.map_eq_some_iff.mp h

theorem commit_of_card {x y : Txn} (h : card y = card x) : y.state = .commit ↔ x.state = .commit := by
  have same := congrArg Card.committing h
  simpa [card] using same

/-! ## An abort carried to its end -/

section
variable {test : Txn → Bool} (cards : ∀ x y, card x = card y → test x = test y) {c : CtxId} {s : State}
include cards

theorem any_of_card {u : State} (h : cardOf u c = cardOf s c) : (u.txn c).any test = (s.txn c).any test := by
  cases busy : s.txn c with
  | none =>
    rw [cardOf, cardOf, busy] at h
    rw [Option.map_eq_none_iff.mp h]
  | some x =>
    obtain ⟨y, hy, same⟩ := txn_of_card h busy
    rw [hy, Option.any_some, Option.any_some, cards y x same]

/-- An abort that reaches one context alone. -/
theorem abortWhere_one {x : Txn} (busy : s.txn c = some x) (hit : test x = true) (running : x.state ≠ .commit)
    (alone : ∀ d y, s.txn d = some y → test y = true → d = c) {cs : List CtxId} (h : c ∈ cs) :
    abortWhere test cs s = releaseAll c x (offLists c s none) := by
  have miss : ∀ d, d ≠ c → (s.txn d).any test = false := fun d other => by
    cases e : s.txn d with
    | none => rfl
    | some y => exact Bool.eq_false_iff.mpr fun hy => other (alone d y e hy)
  induction cs with
  | nil => cases h
  | cons d cs ih =>
    by_cases own : d = c
    · subst own
      have none : ∀ e, ((abortCtx d s).1.txn e).any test = false := fun e => by
        by_cases same : e = d
        · subst same; rw [abortCtx_freed busy running, txn_offLists]; rfl
        · rw [any_of_card cards (without_abortCtx (Ne.symm same) s).card, miss e same]
      rw [abortWhere, busy, Option.any_some, if_pos hit]
      dsimp only
      rw [abortWhere_none test cs _ none, List.append_nil, abortCtx_freed busy running]
    · rw [abortWhere, if_neg (by rw [miss d own]; exact Bool.false_ne_true)]
      exact ih ((List.mem_cons.mp h).resolve_left (Ne.symm own))

omit cards in
/-- A context's turn, seen from the start and the end of the abort. -/
theorem abort_turn (test : Txn → Bool) (c : CtxId) (s : State) :
    ∃ u, Without c s u ∧ Without c (abortTurn test c u) (abortWhere test allContexts s).1 :=
  abortWhere_turn test (mem_allContexts c) (by decide) s

/-- A context that an abort frees: the others' turns, its own, and all that goes on without it. -/
theorem abort_frees {x : Txn} (busy : s.txn c = some x) (hit : test x = true) (running : x.state ≠ .commit) :
    ∃ u y, Without c s u ∧ u.txn c = some y ∧
      Without c (releaseAll c y (offLists c u none)).1 (settle (abortWhere test allContexts s)) := by
  obtain ⟨u, before, after⟩ := abort_turn test c s
  obtain ⟨y, hy, same⟩ := txn_of_card before.card busy
  have turn : abortTurn test c u = (releaseAll c y (offLists c u none)).1 := by
    rw [abortTurn, hy, Option.any_some, if_pos ((cards y x same).trans hit),
      abortCtx_freed hy fun commit => running ((commit_of_card same).mp commit)]
  rw [turn] at after
  exact ⟨u, y, before, hy, after.trans
    (without_settle _ (quiet_abortWhere test _ s) (after.free (txn_offLists c y u)))⟩

theorem abort_free {x : Txn} (busy : s.txn c = some x) (hit : test x = true) (running : x.state ≠ .commit) :
    (settle (abortWhere test allContexts s)).txn c = none := by
  obtain ⟨u, y, -, -, after⟩ := abort_frees cards busy hit running
  exact after.free (txn_offLists c y u)

theorem abort_onNoList {x : Txn} (busy : s.txn c = some x) (hit : test x = true) (running : x.state ≠ .commit) :
    OnNoList (settle (abortWhere test allContexts s)) c := by
  obtain ⟨u, y, -, -, after⟩ := abort_frees cards busy hit running
  exact after.onNoList (onNoList_offLists c y u none)

theorem abort_letGo {x : Txn} (busy : s.txn c = some x) (hit : test x = true) (running : x.state ≠ .commit) :
    LetGo c x s (settle (abortWhere test allContexts s)) := by
  obtain ⟨u, y, before, hy, after⟩ := abort_frees cards busy hit running
  intro k key n need waits
  have free : ∀ m, c ∉ lockWaiters (s.entry k m) := fun m => by
    cases e : s.entry k m with
    | valid copy o ws => exact waits m copy o ws e
    | empty => exact List.not_mem_nil
    | filling key ws => exact List.not_mem_nil
    | transient copy tainted o => exact List.not_mem_nil
  have needs : y.need k = some ⟨key, some n, true⟩ := by
    have same := before.needs k free
    rw [needOf, needOf, hy, busy] at same
    exact (Option.some.inj same).trans need
  obtain ⟨-, -, -, off⟩ := (onNoList_iff _ c).mp (onNoList_offLists c y u none)
  have unheld := (after.entries k n).unheld (fun h => off k n (lockWaiters_subset _ h))
    (offLists_unheld c y u none needs)
  refine ⟨fun copy ws e => ?_, fun copy tainted e => ?_, fun held => (vacated_iff _ k n).mpr ?_⟩
  · rw [e] at unheld; exact unheld rfl
  · rw [e] at unheld; exact unheld rfl
  · have emptied : EmptiedBy c (s.entry k n) := by
      rcases held with ⟨copy, tainted, e⟩ | ⟨copy, ws, e, stale⟩ <;> rw [e]
      · rfl
      · exact ⟨rfl, stale⟩
    have empty := offLists_emptied c y u none needs ((before.entries k n).emptied emptied)
    exact (after.entries k n).vacant (by rw [empty]; trivial)

theorem abort_alone {x : Txn} (busy : s.txn c = some x) (hit : test x = true) (running : x.state ≠ .commit)
    (alone : ∀ d y, s.txn d = some y → test y = true → d = c) :
    ∃ r, Released c x s r ∧ settle (abortWhere test allContexts s) = settle r :=
  ⟨_, released_releaseAll c x s none, congrArg settle
    (abortWhere_one cards busy hit running alone (mem_allContexts c))⟩

/-- The card of a context in COMMIT, or of one that the abort does not reach. -/
theorem abort_card (h : (s.txn c).any test = false ∨ ∃ x, s.txn c = some x ∧ x.state = .commit) :
    cardOf (settle (abortWhere test allContexts s)) c =
      (cardOf s c).map fun x => if (s.txn c).any test then { x with abandoned := true } else x := by
  obtain ⟨u, before, after⟩ := abort_turn test c s
  have settled := (hushed_settle _ (quiet_abortWhere test allContexts s)).cards c
  rw [settled, after.card, abortTurn, any_of_card cards before.card]
  cases reached : (s.txn c).any test with
  | false => exact before.card.trans (congrFun Option.map_id (cardOf s c)).symm
  | true =>
    obtain ⟨x, busy, commit⟩ := h.resolve_left (by rw [reached]; exact Bool.noConfusion)
    obtain ⟨y, hy, same⟩ := txn_of_card before.card busy
    rw [if_pos rfl, abortCtx_commit hy ((commit_of_card same).mpr commit), cardOf, State.txn_setTxn, cardOf, busy]
    exact congrArg (fun k : Card => some { k with abandoned := true }) same

end

theorem apart_of_steady {s t : State} (h : t.steady = s.steady) (link : t.bli.counters = s.bli.counters) : Apart s t :=
  ⟨congrArg Steady.powered h, congrArg Steady.pending h, congrArg Steady.rs h, congrArg Steady.day h,
    congrArg Steady.override h, congrArg Steady.cause h, congrArg Steady.phase h, congrArg Steady.assembly h,
    congrArg Steady.escape h, congrArg Steady.unitNumber h, link⟩

/-- An abort carried to its end, with all that it sets off (R59). -/
theorem aborted_settle (P : Txn → Prop) [DecidablePred P] (cards : ∀ x y, card x = card y → (P x ↔ P y)) (s : State) :
    Aborted P s (settle (abortWhere (fun x => decide (P x)) allContexts s)) := by
  have same : ∀ x y, card x = card y → decide (P x) = decide (P y) := fun x y h =>
    decide_eq_decide.mpr (cards x y h)
  have still := still_abort (fun x => decide (P x)) s
  refine ⟨?_, ?_, ?_, ?_, ?_, ?_, still.counters, still.cu, apart_of_steady ?_ still.link⟩
  · exact fun c x busy hit running => abort_free same busy (decide_eq_true hit) running
  · intro c x busy hit commit
    rw [abort_card same (.inr ⟨x, busy, commit⟩), cardOf, busy]
    simp [hit]
  · exact fun c x busy hit running => abort_onNoList same busy (decide_eq_true hit) running
  · exact fun c x busy hit running => abort_letGo same busy (decide_eq_true hit) running
  · intro c x busy hit running alone
    obtain ⟨r, released, e⟩ := abort_alone same busy (decide_eq_true hit) running fun d y hy hit =>
      alone d y hy (of_decide_eq_true hit)
    exact ⟨r, released, by rw [e]⟩
  · intro c spared
    have missed : (s.txn c).any (fun x => decide (P x)) = false := by
      cases e : s.txn c with
      | none => rfl
      | some x => exact decide_eq_false (spared x e)
    rw [abort_card same (.inl missed), missed]
    exact congrFun Option.map_id (cardOf s c)
  · rw [steady_settle]
    exact steady_of_outside (outside_abortWhere _ _ _)

/-- The lanes have no part in an abort's effect on the contexts. -/
theorem aborted_withLanes {P : Txn → Prop} {s t : State} (h : Aborted P s t) (l m : Vector Lane 4) :
    Aborted P { s with lanes := l } { t with lanes := m } := by
  obtain ⟨freed, abandoned, lists, released, alone, others, counters, commits, apart⟩ := h
  refine ⟨freed, abandoned, lists, released, fun c x busy hit running only => ?_, others, counters, commits,
    ⟨apart.powered, apart.pending, apart.store, apart.day, apart.override, apart.cause, apart.phase, apart.assembly,
      apart.escape, apart.unitNumber, apart.link⟩⟩
  obtain ⟨r, ⟨stale, unlocked, passed, owned, rest, off⟩, e⟩ := alone c x busy hit running only
  exact ⟨r, ⟨stale, unlocked, passed, owned, rest, off⟩, e⟩

end Sys2Proof.KioskLanes

namespace Sys2Proof.KioskLanes

open Sys2Proof Sys2Proof.Machine Sys2Proof.Safety

/-! ## Lane and drop aborts (R5, R10, R59) -/

theorem lane_of_card {x y : Txn} (h : card x = card y) : x.lane = y.lane := congrArg Card.lane h

theorem drop_of_card {x y : Txn} (h : card x = card y) : x.drop = y.drop := congrArg Card.drop h

section
variable (i : LaneId) (s : State)

theorem laneAbort_lane (f : Lane → Lane) : (laneAbort i f s).lane i = f (s.lane i).abort := by
  rw [laneAbort, State.lane_mapLane, lane_abortLane, State.lane_mapLane]

theorem laneAbort_lane_ne (f : Lane → Lane) {j : LaneId} (h : j ≠ i) : (laneAbort i f s).lane j = s.lane j := by
  rw [laneAbort, State.lane_mapLane_ne _ _ (Ne.symm h), lane_abortLane, State.lane_mapLane_ne _ _ (Ne.symm h)]

theorem aborted_laneAbort (f : Lane → Lane) : Aborted (fun x => x.lane = i) s (laneAbort i f s) :=
  have aborted := aborted_settle (fun x => x.lane = i) (fun x y h => by rw [lane_of_card h]) (s.mapLane i Lane.abort)
  aborted_withLanes aborted s.lanes (laneAbort i f s).lanes

theorem aborted_abortDrop (d : DropId) (l : Lane) :
    Aborted (fun x => x.lane = i ∧ x.drop = d) s (abortDrop i d (s.setLane i l)) :=
  have aborted := aborted_settle (fun x => x.lane = i ∧ x.drop = d)
    (fun x y h => by rw [lane_of_card h, drop_of_card h]) (s.setLane i l)
  aborted_withLanes aborted s.lanes (abortDrop i d (s.setLane i l)).lanes

end

/-- Settles O6: both cases of R4 are a lane abort and the mode that follows it. -/
theorem setLaneAborts : Obligations.SetLaneAborts := by
  unfold Obligations.SetLaneAborts
  intro s seq lane mode rate i r h hl hr serving asked
  have cut := laneAbort_lane i (counted s)
  have others := fun f j (hj : j ≠ i) => laneAbort_lane_ne i (counted s) f hj
  have aborted := aborted_laneAbort i (counted s)
  rcases asked with rfl | ⟨rfl, other⟩
  · refine ⟨_, ?_, cut fun l => ({ l with rate := r } : Lane).enterIsolated, others _, aborted _⟩
    rw [exec_setLane h, manageSetLane_isolate hl hr, takeSetLane_isolate (s := counted s) r serving]; rfl
  · refine ⟨_, ?_, cut fun l => ({ l with rate := r } : Lane).enterStarting, others _, aborted _⟩
    rw [exec_setLane h, manageSetLane_serve hl hr,
      takeSetLane_restart (s := counted s) r serving other]; rfl

theorem takeSetDrop_off {s : State} {i : LaneId} {d : DropId} (h : ((s.lane i).dropRec d).enrolment ≠ .off) :
    takeSetDrop i d .off s = abortDrop i d (s.setLane i
      { (s.lane i).setDropRec d { (s.lane i).dropRec d with enrolment := .off } with
        replies := (s.lane i).replies.filter fun x => decide (x.drop ≠ d) }) := by
  unfold takeSetDrop; dsimp only
  rw [if_neg (Ne.symm h), if_pos rfl]
  rfl

/-- Settles O8: the drop's record and replies change at once, then its transactions are aborted. -/
theorem setDropOffAborts : Obligations.SetDropOffAborts := by
  unfold Obligations.SetDropOffAborts
  intro s seq lane drop i d h hl hd enrolled
  refine ⟨abortDrop i d ((counted s).setLane i
    { (s.lane i).setDropRec d { (s.lane i).dropRec d with enrolment := .off } with
      replies := (s.lane i).replies.filter fun x => decide (x.drop ≠ d) }), ?_, ?_, fun j hj => ?_,
    aborted_abortDrop i (counted s) d _⟩
  · rw [exec_setDrop h, manageSetDrop_taken hl hd (.inl ⟨rfl, rfl⟩), takeSetDrop_off (s := counted s) enrolled]; rfl
  · rw [lane_abortDrop, State.lane_setLane]
  · rw [lane_abortDrop, State.lane_setLane_ne _ _ (Ne.symm hj), lane_counted]

/-- A break on a receiving lane is a lane abort, the break counted. -/
theorem exec_breakReceived {s : State} {i : LaneId} (power : s.powered = true)
    (receiving : (s.lane i).receiving = true) :
    exec (.breakReceived i) s = .next (laneAbort i Lane.enterStarting (s.mapLane i (·.count .breaks))) := by
  show Host.Outcome.next (live (takeBreak i) s) = _
  rw [live_powered power, takeBreak, if_pos receiving]

/-- Settles O16: a deaf lane detects no break; on a receiving one it is counted and aborts the lane into STARTING. -/
theorem breakAbortsLane : Obligations.BreakAbortsLane := by
  unfold Obligations.BreakAbortsLane
  refine ⟨fun s i deaf => ?_, fun s i power serve silent => ?_⟩
  · show Host.Outcome.next (live (takeBreak i) s) = _
    rw [live, takeBreak, receiving_false deaf, if_neg Bool.false_ne_true, ite_self]
  · have receiving := (receiving_iff (s.lane i)).mpr ⟨serve, silent⟩
    refine ⟨_, exec_breakReceived power receiving, ?_, fun j hj => ?_, ?_⟩
    · rw [laneAbort_lane, State.lane_mapLane]; rfl
    · rw [laneAbort_lane_ne i _ _ hj, State.lane_mapLane_ne _ _ (Ne.symm hj)]
    · exact aborted_withLanes (aborted_laneAbort i (s.mapLane i (·.count .breaks)) Lane.enterStarting) s.lanes _

end Sys2Proof.KioskLanes

namespace Sys2Proof.BranchLink

open Sys2Proof Sys2Proof.Machine Sys2Proof.Safety

/-! ## The transmitter and the marks of its senders -/

/-- A block that has at most one frame of its own held for the line: a fill slot, a context, or UM (R86, R109, R185). -/
inductive Sender where
  | slot (i : SlotId)
  | context (c : CtxId)
  | management
deriving DecidableEq

/-- The block whose mark stands for a frame; a RELAY_UP and a UNIT_STARTED have none. -/
def sender : Frame → Option Sender
  | .fetch i .. => some (.slot i)
  | .update c .. => some (.context c)
  | .mgmtReply .. => some .management
  | .relayUp .. | .unitStarted _ => none

/-- The mark of a sender: a frame of its own is held for the line (R86, R109, R185). -/
def mark (s : State) : Sender → Bool
  | .slot i => (s.slot i).onLine
  | .context c => (s.commitRec c).onLine
  | .management => s.um.replyOnLine

/-- BLI without its receiver and its counters: the transmitter and the unit number. -/
def half (b : Bli) : Bli :=
  { b with phase := .hunt, bits := [], assembly := [], escape := false, counters := LinkCounters.zero }

/-- What says which frames are held for the line and which may join them: the transmitter, the marks of the senders, and
the UPDATE frames held back (R33, R86, R109, R185). -/
structure Wire where
  link : Bli
  mark : Sender → Bool
  owed : CtxId → Option Frame

/-- The transmitter, the marks and the frames held back of a state. -/
def wire (s : State) : Wire := ⟨half s.bli, mark s, fun c => (s.commitRec c).owed⟩

/-- A frame joins the tail of the frames held for the line (R33). -/
def Wire.send (w : Wire) (f : Frame) : Wire := { w with link := w.link.enqueue f }

/-- The mark of a sender changes. -/
def Wire.setMark (w : Wire) (x : Sender) (b : Bool) : Wire := { w with mark := Function.update w.mark x b }

/-- The UPDATE held back for a context changes. -/
def Wire.setOwed (w : Wire) (c : CtxId) (f : Option Frame) : Wire := { w with owed := Function.update w.owed c f }

/-- The ways in which a block offers a frame to the line, or holds one back. -/
inductive Offer : Wire → Wire → Prop
  /-- A RELAY_UP within its share (R34). -/
  | relay (w : Wire) (lane : LaneId) (drop : DropId) (body : List Octet) (room : w.link.relaysHeld < 19) :
    Offer w (w.send (.relayUp lane drop body))
  /-- A frame of a sender with none on the line, a new one or the one it held back (R86, R109, R185). -/
  | own (w : Wire) (x : Sender) (f : Frame) (clear : w.mark x = false)
    (kind : sender f = some x ∨ ∃ c, x = .context c ∧ w.owed c = some f) : Offer w ((w.setMark x true).send f)
  /-- An UPDATE is held back while another of the context is on the line (R109). -/
  | owe (w : Wire) (c : CtxId) (f : Frame) (kind : sender f = some (.context c)) : Offer w (w.setOwed c (some f))
  /-- The context holds back no UPDATE any more (R109). -/
  | drop (w : Wire) (c : CtxId) : Offer w (w.setOwed c none)

/-- Between two states the blocks have offered some frames to the line. -/
def Sends (s t : State) : Prop := Relation.ReflTransGen Offer (wire s) (wire t)

theorem Sends.refl (s : State) : Sends s s := Relation.ReflTransGen.refl

theorem Sends.trans {s t u : State} (h : Sends s t) (g : Sends t u) : Sends s u := Relation.ReflTransGen.trans h g

/-- An update that leaves the transmitter and the marks alone. -/
theorem Sends.of_eq {s t : State} (h : wire t = wire s) : Sends s t := by unfold Sends; rw [h]

/-- An update that leaves the transmitter and the marks alone, before an operation. -/
theorem Sends.after {s t u : State} (g : Sends t u) (h : wire t = wire s) : Sends s u := (Sends.of_eq h).trans g

/-- An update that leaves the transmitter and the marks alone, after an operation. -/
theorem Sends.before {s t u : State} (g : Sends s t) (h : wire u = wire t) : Sends s u := g.trans (.of_eq h)

theorem Sends.of_offer {s t : State} (h : Offer (wire s) (wire t)) : Sends s t := .single h

/-! ## Updates of the state and the wire -/

section Updates
variable (s : State)

@[simp] theorem wire_setTxn (c : CtxId) (t : Option Txn) : wire (s.setTxn c t) = wire s := rfl
@[simp] theorem wire_countTxn (c : TxnCounter) : wire (s.countTxn c) = wire s := rfl
@[simp] theorem wire_setEntry (k : RecordKind) (n : Nat) (e : Entry) : wire (s.setEntry k n e) = wire s := rfl
@[simp] theorem wire_touch (k : RecordKind) (n : Nat) : wire (s.touch k n) = wire s := rfl
@[simp] theorem wire_leaveLists (c : CtxId) : wire (leaveLists c s) = wire s := rfl
@[simp] theorem wire_enterDecide (c : CtxId) (t : Txn) : wire (enterDecide c t s) = wire s := rfl
@[simp] theorem wire_offerReply (i : LaneId) (d : DropId) (body : List Octet) :
    wire (offerReply i d body s) = wire s := rfl

theorem wire_bli (b : Bli) : wire { s with bli := b } = { wire s with link := half b } := rfl

theorem wire_setSlot (i : SlotId) (x : FillSlot) : wire (s.setSlot i x) = (wire s).setMark (.slot i) x.onLine := by
  have marks : mark (s.setSlot i x) = Function.update (mark s) (.slot i) x.onLine := by
    funext y
    by_cases h : y = .slot i
    · subst h; simp [mark]
    rw [Function.update_of_ne h]
    cases y with
    | slot j => exact congrArg FillSlot.onLine (State.slot_setSlot_ne s x fun e => h (congrArg Sender.slot e.symm))
    | context c => rfl
    | management => rfl
  exact congrArg (fun m => { wire s with mark := m }) marks

/-- A slot whose mark stays as it was. -/
theorem wire_setSlot_same (i : SlotId) (x : FillSlot) (h : x.onLine = (s.slot i).onLine) :
    wire (s.setSlot i x) = wire s := by
  rw [wire_setSlot, h]; exact congrArg (fun m => { wire s with mark := m }) (Function.update_eq_self (.slot i) _)

theorem wire_setCommitRec (c : CtxId) (r : CommitRecord) :
    wire (s.setCommitRec c r) = ((wire s).setMark (.context c) r.onLine).setOwed c r.owed := by
  have marks : mark (s.setCommitRec c r) = Function.update (mark s) (.context c) r.onLine := by
    funext y
    by_cases h : y = .context c
    · subst h; simp [mark]
    rw [Function.update_of_ne h]
    cases y with
    | slot i => rfl
    | context d =>
      exact congrArg CommitRecord.onLine (State.commitRec_setCommitRec_ne s r fun e => h (congrArg Sender.context e.symm))
    | management => rfl
  have owed : (fun d => ((s.setCommitRec c r).commitRec d).owed) = Function.update (wire s).owed c r.owed := by
    funext d
    by_cases h : d = c
    · subst h; simp
    · rw [State.commitRec_setCommitRec_ne s r (Ne.symm h), Function.update_of_ne h]; rfl
  exact congrArg₂ (fun m o => { wire s with mark := m, owed := o }) marks owed

/-- A commit record whose mark stays as it was. -/
theorem wire_setCommitRec_same (c : CtxId) (r : CommitRecord) (h : r.onLine = (s.commitRec c).onLine) :
    wire (s.setCommitRec c r) = (wire s).setOwed c r.owed := by
  rw [wire_setCommitRec, h]
  exact congrArg (fun m => { (wire s).setOwed c r.owed with mark := m }) (Function.update_eq_self (.context c) _)

theorem wire_um (u : Um) : wire { s with um := u } = (wire s).setMark .management u.replyOnLine := by
  have marks : mark { s with um := u } = Function.update (mark s) .management u.replyOnLine := by
    funext y
    cases y with
    | slot i => rfl
    | context c => rfl
    | management => simp [mark]
  exact congrArg (fun m => { wire s with mark := m }) marks

end Updates

@[simp] theorem half_start (b : Bli) : half b.start = (half b).start := by
  rcases b with ⟨_, _, _, _, _ | ⟨f, fs⟩, _ | g, _, _, _⟩ <;> rfl

theorem half_enqueue (b : Bli) (f : Frame) : half (b.enqueue f) = (half b).enqueue f := half_start _

theorem wire_sendFrame (f : Frame) (s : State) : wire (sendFrame f s) = (wire s).send f := by
  simp only [sendFrame, wire_bli, half_enqueue, Wire.send]; rfl

/-! ## Frames offered -/

theorem sends_offerRelay (i : LaneId) (d : DropId) (body : List Octet) (s : State) :
    Sends s (offerRelay i d body s) := by
  unfold offerRelay; split
  · next room => exact .of_offer (by rw [wire_sendFrame]; exact .relay _ i d body room)
  · exact .of_eq rfl

theorem sends_fetchDue (i : SlotId) (a b : Nat) (s : State) : Sends s (fetchDue i a b s) := by
  unfold fetchDue; dsimp only; split
  · exact .refl s
  split
  · exact .of_eq (wire_setSlot_same s i _ rfl)
  · next clear =>
    refine .of_offer ?_
    rw [wire_sendFrame, wire_setSlot]
    exact .own (wire s) (.slot i) _ (Bool.eq_false_of_not_eq_true clear) (.inl rfl)

theorem sends_pumpReplies (s : State) : Sends s (pumpReplies s) := by
  unfold pumpReplies; split
  · next r rs clear _ =>
    refine .of_offer ?_
    rw [wire_sendFrame, wire_um s { s.um with replies := rs, replyOnLine := true }]
    exact .own (wire s) .management (.mgmtReply r.seq r.command r.result r.fields) clear (.inl rfl)
  · exact .refl s

/-- A context with no UPDATE on the line offers one, and holds back none any more. -/
theorem sends_update (c : CtxId) (f : Frame) (timer : Bool) (s : State) (clear : (s.commitRec c).onLine = false)
    (kind : sender f = some (.context c) ∨ (s.commitRec c).owed = some f) :
    Sends s (sendFrame f (s.setCommitRec c ⟨timer, true, none⟩)) := by
  have offered : Offer (wire s) (((wire s).setMark (.context c) true).send f) :=
    .own (wire s) (.context c) f clear (kind.imp_right fun h => ⟨c, rfl, h⟩)
  refine (Relation.ReflTransGen.single offered).tail ?_
  rw [wire_sendFrame, wire_setCommitRec]
  exact .drop _ c

theorem sends_offerUpdate (c : CtxId) (f : Frame) (h : sender f = some (.context c)) (s : State) :
    Sends s (offerUpdate c f s) := by
  unfold offerUpdate; dsimp only; split
  · have kept := wire_setCommitRec_same s c { s.commitRec c with timerRunning := true, owed := some f } rfl
    exact .of_offer (kept ▸ .owe (wire s) c f h)
  · next clear => exact sends_update c f true s (Bool.eq_false_of_not_eq_true clear) (.inl h)

theorem sends_takeOutcome (c : CtxId) (s : State) : Sends s (takeOutcome c s) := by
  have kept := wire_setCommitRec_same s c { s.commitRec c with timerRunning := false, owed := none } rfl
  exact .of_offer (show Offer (wire s) (wire (s.setCommitRec c _)) from kept ▸ .drop (wire s) c)

theorem sends_answer (q c : Octet) (r : ResultCode) (fs : List Octet) {s t : State} (h : Sends s t) :
    Sends s (answer q c r fs t) := h.trans ((sends_pumpReplies _).after rfl)

theorem sends_settleQuiesce (s : State) : Sends s (settleQuiesce s) := by
  unfold settleQuiesce; split
  · dsimp only; split
    · exact sends_answer _ _ _ _ (.of_eq rfl)
    · exact .of_eq rfl
  · exact .refl s

/-! ## Fills and lookups -/

theorem sends_takeUp (i : SlotId) (w : WaitingFill) (s : State) : Sends s (takeUp i w s) :=
  (sends_fetchDue _ _ _ _).after (wire_setSlot_same s i _ rfl)

theorem sends_giveFill (w : WaitingFill) (s : State) : Sends s (giveFill w s) := by
  unfold giveFill; split
  · exact sends_takeUp _ _ _
  · exact .of_eq rfl

theorem sends_finishSlot (i : SlotId) {s t : State} (h : Sends s t) : Sends s (finishSlot i t) := by
  have idle := wire_setSlot_same t i { t.slot i with fill := none } rfl
  unfold finishSlot; dsimp only; split
  · exact h.before idle
  · exact (h.before idle).trans ((sends_takeUp _ _ _).after rfl)

theorem sends_lookup (c : CtxId) (k : RecordKind) (key : Key) (s : State) : Sends s (lookup c k key s).1 := by
  unfold lookup; dsimp only; repeat' split
  · exact .of_eq rfl
  · exact .of_eq rfl
  · exact (sends_giveFill _ _).after rfl
  · exact .of_eq rfl

/-! ## Contexts -/

@[simp] theorem wire_foldl_mapTxn {α : Type} (g : α → CtxId) (f : α → Txn → Txn) (l : List α) (s : State) :
    wire (l.foldl (fun s w => s.mapTxn (g w) (f w)) s) = wire s := by
  induction l generalizing s with
  | nil => rfl
  | cons a l ih => exact ih _

@[simp] theorem wire_releaseEntry (c : CtxId) (k : RecordKind) (n : Nat) (s : State) :
    wire (releaseEntry c k n s).1 = wire s := by
  unfold releaseEntry; repeat' split
  · rfl
  · exact wire_foldl_mapTxn (fun w => w) (fun _ t => t.lose k) _ _
  all_goals rfl

@[simp] theorem wire_releaseNeed (c : CtxId) (t : Txn) (k : RecordKind) (s : State) :
    wire (releaseNeed c t k s).1 = wire s := by
  unfold releaseNeed; split <;> simp

@[simp] theorem wire_releaseLock (c : CtxId) (t : Txn) (k : RecordKind) (s : State) :
    wire (releaseLock c t k s).1 = wire s := by
  unfold releaseLock; split <;> simp

@[simp] theorem wire_releaseAll (c : CtxId) (t : Txn) (s : State) : wire (releaseAll c t s).1 = wire s := by
  simp [releaseAll, eachKind]

@[simp] theorem wire_freeCtx (c : CtxId) (s : State) : wire (freeCtx c s).1 = wire s := by
  unfold freeCtx; split <;> simp

@[simp] theorem wire_endCtx (c : CtxId) (code : ResultCode) (fields : List Octet) (s : State) :
    wire (endCtx c code fields s).1 = wire s := by
  unfold endCtx; split
  · rfl
  · dsimp only; split <;> simp

@[simp] theorem wire_regather (c : CtxId) (s : State) : wire (regather c s).1 = wire s := by
  unfold regather; repeat' split
  all_goals simp

@[simp] theorem wire_abortCtx (c : CtxId) (s : State) : wire (abortCtx c s).1 = wire s := by
  unfold abortCtx; repeat' split
  all_goals simp

@[simp] theorem wire_endEach (code : ResultCode) (cs : List CtxId) (s : State) :
    wire (endEach code cs s).1 = wire s := by
  induction cs generalizing s with
  | nil => rfl
  | cons c cs ih => simp [endEach, ih]

@[simp] theorem wire_abortWhere (test : Txn → Bool) (cs : List CtxId) (s : State) :
    wire (abortWhere test cs s).1 = wire s := by
  induction cs generalizing s with
  | nil => rfl
  | cons c cs ih => unfold abortWhere; split <;> simp [ih]

@[simp] theorem wire_resettle (c : CtxId) (t : Txn) (item : Image) (s : State) :
    wire (resettle c t item s).1 = wire s := by simp [resettle]

@[simp] theorem wire_allLocked (c : CtxId) (t : Txn) (s : State) : wire (allLocked c t s).1 = wire s := by
  unfold allLocked; repeat' split
  all_goals simp

@[simp] theorem wire_requestLock (c : CtxId) (t : Txn) (k : RecordKind) (key : Key) (n : Nat) (s : State) :
    wire (requestLock c t k key n s).1 = wire s := by
  unfold requestLock; dsimp only; repeat' split
  all_goals simp

@[simp] theorem wire_copyPatron (c : CtxId) (t : Txn) (s : State) : wire (copyPatron c t s).1 = wire s := by
  unfold copyPatron; repeat' split
  all_goals simp

/-- A context that goes on may have its lookup allocate an entry, whose fill asks for its record. -/
theorem sends_resumeCtx (c : CtxId) (s : State) : Sends s (resumeCtx c s).1 := by
  unfold resumeCtx
  split
  · exact .refl s
  split
  · exact .refl s
  split
  · split <;> exact .of_eq rfl
  split
  · next k key _ =>
    have looked := sends_lookup c k key s
    split
    · next found => rw [found] at looked; exact looked.before rfl
    · next found => rw [found] at looked; exact looked
  split
  · exact .of_eq (wire_copyPatron _ _ _)
  split
  · exact .of_eq (wire_requestLock _ _ _ _ _ _)
  · exact .of_eq (wire_allLocked _ _ _)

theorem sends_doTask (t : Task) (s : State) : Sends s (doTask t s).1 := by
  cases t with
  | resume c => exact sends_resumeCtx c s
  | retry k => exact .refl s
  | regather c => exact .of_eq (wire_regather c s)

theorem sends_runTasks (fuel : Nat) (ts : List Task) (s : State) : Sends s (runTasks fuel ts s) := by
  induction fuel generalizing ts s with
  | zero => exact .refl s
  | succ n ih =>
    cases ts with
    | nil => exact .refl s
    | cons t ts => exact (sends_doTask t s).trans (ih _ _)

theorem sends_offerRoom (k : RecordKind) {s t : State} (h : Sends s t) : Sends s (offerRoom k t) :=
  h.trans (sends_runTasks _ _ t)

theorem sends_settle {s : State} (r : State × List Task) (h : Sends s r.1) : Sends s (settle r) :=
  (h.trans (sends_runTasks _ _ _)).trans (sends_settleQuiesce _)

/-- An abort offers nothing itself; what it sets off may. -/
theorem sends_abort (test : Txn → Bool) (cs : List CtxId) (s : State) : Sends s (settle (abortWhere test cs s)) :=
  sends_settle _ (.of_eq (wire_abortWhere test cs s))

/-! ## Fills, notices, commits, decisions -/

theorem sends_completeFill (i : SlotId) (f : Fill) (v : Version) (keep : Bool) (s : State) :
    Sends s (completeFill i f v keep s).1 := by
  unfold completeFill; dsimp only; split
  · exact sends_finishSlot i (sends_offerRoom _ (.of_eq rfl))
  · exact sends_finishSlot i (.of_eq (wire_foldl_mapTxn (fun w => w) (fun _ t => t.found f.kind f.entry false) _ _))
  · exact sends_finishSlot i (sends_offerRoom _ (.of_eq rfl))
  · exact sends_finishSlot i (.of_eq rfl)

theorem sends_failFill (i : SlotId) (f : Fill) (code : ResultCode) (s : State) : Sends s (failFill i f code s).1 :=
  sends_finishSlot i (sends_offerRoom _ (.of_eq (wire_endEach code _ s)))

theorem sends_restartFill (i : SlotId) (f : Fill) (s : State) : Sends s (restartFill i f s) :=
  (sends_fetchDue _ _ _ _).after (wire_setSlot_same s i _ rfl)

theorem wire_setFill (i : SlotId) (f : Fill) (s : State) : wire (setFill i f s) = wire s := wire_setSlot_same s i _ rfl

theorem sends_takeSegment (tag : Tag) (kind : Octet) (key : Key) (v : Version) (index flags : Octet)
    (data : List Octet) (s : State) : Sends s (takeSegment tag kind key v index flags data s) := by
  unfold takeSegment
  split
  · exact .of_eq rfl
  split
  · exact .of_eq rfl
  split
  · exact sends_restartFill _ _ s
  split
  · dsimp only; split
    · exact (sends_fetchDue _ _ _ _).after rfl
    · exact .of_eq rfl
  dsimp only
  split
  · exact sends_settle _ ((sends_completeFill _ _ _ _ _).after (wire_setFill _ _ s))
  split
  · exact (sends_fetchDue _ _ _ _).after (wire_setFill _ _ s)
  · exact .of_eq (wire_setFill _ _ s)

theorem sends_takeAbsent (tag : Tag) (s : State) : Sends s (takeAbsent tag s) := by
  unfold takeAbsent; repeat' split
  · exact sends_settle _ (sends_failFill _ _ _ s)
  · exact .of_eq rfl
  · exact .of_eq rfl

theorem sends_takeDefer (tag : Tag) (code : Octet) (s : State) : Sends s (takeDefer tag code s) := by
  unfold takeDefer; repeat' split
  · exact .of_eq rfl
  · exact sends_settle _ (sends_failFill _ _ _ s)
  · exact .of_eq (wire_setFill _ _ s)
  · exact .of_eq rfl

theorem wire_noteInFills (k : RecordKind) (key : Key) (v : Version) (s : State) :
    wire (noteInFills k key v s) = wire s := by
  have marks : mark (noteInFills k key v s) = mark s := by
    funext y
    cases y with
    | slot i => simp [mark, noteInFills, State.slot]
    | context c => rfl
    | management => rfl
  exact congrArg (fun m => { wire s with mark := m }) marks

theorem wire_noteInEntries (k : RecordKind) (key : Key) (v : Version) (ns : List Nat) (s : State) :
    wire (noteInEntries k key v ns s).1 = wire s := by
  induction ns generalizing s with
  | nil => rfl
  | cons n ns ih =>
    have one : wire (noteInEntry k key v n s).1 = wire s := by
      unfold noteInEntry; repeat' split
      all_goals rfl
    exact (ih _).trans one

theorem sends_takeInvalidate (kind : Octet) (key : Key) (v : Version) (s : State) :
    Sends s (takeInvalidate kind key v s) := by
  unfold takeInvalidate; repeat' split
  · exact .refl s
  · exact .refl s
  · exact sends_settle _ (.of_eq ((wire_noteInEntries _ _ _ _ _).trans (wire_noteInFills _ _ _ s)))

@[simp] theorem wire_mapHeldCopy (c : CtxId) (k : RecordKind) (n : Nat) (f : Copy → Copy) (s : State) :
    wire (mapHeldCopy c k n f s) = wire s := by
  unfold mapHeldCopy; repeat' split
  all_goals rfl

theorem wire_applyEntries (c : CtxId) (es : List (UpdateEntry × Version)) (s : State) :
    wire (applyEntries c es s) = wire s := by
  induction es generalizing s with
  | nil => rfl
  | cons e es ih =>
    have one : wire (applyEntry c e.1 e.2 s) = wire s := by
      unfold applyEntry; repeat' split
      all_goals simp
    exact (ih _).trans one

theorem wire_staleEntries (c : CtxId) (es : List (UpdateEntry × Version)) (s : State) :
    wire (staleEntries c es s) = wire s := by
  induction es generalizing s with
  | nil => rfl
  | cons e es ih => exact (ih _).trans (wire_mapHeldCopy _ _ _ _ _)

theorem wire_timeoutEntries (c : CtxId) (es : List UpdateEntry) (s : State) :
    wire (timeoutEntries c es s) = wire s := by
  induction es generalizing s with
  | nil => rfl
  | cons e es ih => exact (ih _).trans (wire_mapHeldCopy _ _ _ _ _)

theorem sends_takeResult (tag : Tag) (attempt outcome : Octet) (vs : List Version) (s : State) :
    Sends s (takeResult tag attempt outcome vs s) := by
  unfold takeResult
  split
  · exact .of_eq rfl
  next c o r _ =>
  have taken := sends_takeOutcome c s
  dsimp only; split
  · exact sends_settle _ (taken.before ((wire_endCtx _ _ _ _).trans (wire_applyEntries _ _ _)))
  · exact sends_settle _ (taken.before ((wire_regather _ _).trans (wire_staleEntries _ _ _)))
  · exact sends_settle _ (taken.before (wire_endCtx _ _ _ _))

theorem sends_endDelay (i : SlotId) (s : State) : Sends s (endDelay i s) := by
  unfold endDelay; repeat' split
  · exact sends_restartFill _ _ s
  · exact .refl s
  · exact .refl s

theorem sends_fetchTimerOut (i : SlotId) (s : State) : Sends s (fetchTimerOut i s) := by
  unfold fetchTimerOut; repeat' split
  · exact sends_settle _ (sends_failFill _ _ _ s)
  · exact .refl s
  · exact .refl s

theorem sends_commitTimerOut (c : CtxId) (s : State) : Sends s (commitTimerOut c s) := by
  unfold commitTimerOut; repeat' split
  · exact sends_settle _ ((sends_takeOutcome c s).before ((wire_endCtx _ _ _ _).trans (wire_timeoutEntries _ _ _)))
  all_goals exact .refl s

theorem sends_deadlineFalls (c : CtxId) (s : State) : Sends s (deadlineFalls c s) := by
  unfold deadlineFalls; repeat' split
  · exact .refl s
  · exact sends_settle _ (.of_eq (wire_endCtx _ _ _ s))
  · exact sends_settle _ (.of_eq (wire_endCtx _ _ _ s))
  · exact .of_eq rfl

theorem wire_readHeld (t : Txn) (s : State) : wire (readHeld t s) = wire s := by
  have touched : ∀ k s, wire (touchRead t s k) = wire s := fun k s => by unfold touchRead; split <;> rfl
  unfold readHeld; split
  · rfl
  · simp [RecordKind.order, touched]

theorem sends_queueUpdate (c : CtxId) (x : NewImages) (code : ResultCode) (fields : List Octet) (s : State) :
    Sends s (queueUpdate c x code fields s) := by
  unfold queueUpdate; split
  · exact .refl s
  · exact (sends_offerUpdate c _ rfl _).after rfl

theorem sends_applyDecision (c : CtxId) (x : Txn) (d : Decision) (s : State) : Sends s (applyDecision c x d s) := by
  have read := wire_readHeld x s
  unfold applyDecision; dsimp only; split
  · exact sends_settle _ (.of_eq ((wire_endCtx _ _ _ _).trans read))
  · exact sends_settle _ (.of_eq ((wire_endCtx _ _ _ _).trans read))
  · exact (sends_queueUpdate _ _ _ _ _).after read
  · exact .of_eq read

theorem sends_takeDecision (f : CtxId → Txn → State → Option Decision) (s : State) : Sends s (takeDecision f s) := by
  unfold takeDecision; repeat' split
  · exact .refl s
  · exact .refl s
  · exact .refl s
  · exact (sends_applyDecision _ _ _ _).after rfl

/-! ## Lanes and dispatch -/

theorem sends_dispatch (i : LaneId) (d : DropId) (body : List Octet) (s : State) : Sends s (dispatch i d body s) := by
  unfold dispatch; dsimp only; repeat' split
  · exact sends_offerRelay _ _ _ s
  · exact .of_eq rfl
  · exact .of_eq rfl
  · exact sends_settle _ (.of_eq rfl)

theorem sends_assembleCharacter (i : LaneId) (d : DropId) (c : LaneChar) (s : State) :
    Sends s (assembleCharacter i d c s) := by
  unfold assembleCharacter; dsimp only; split_ifs
  · exact .of_eq rfl
  · exact .of_eq rfl
  · exact .of_eq rfl
  · unfold completeFrame; dsimp only; split
    · exact (sends_dispatch _ _ _ _).after rfl
    · exact .of_eq rfl
  · exact .of_eq rfl

theorem sends_takeCharacter (i : LaneId) (x : Samples) (s : State) : Sends s (takeCharacter i x s) := by
  unfold takeCharacter; split
  · split
    · exact .refl s
    dsimp only; split
    · exact .of_eq rfl
    · exact .of_eq rfl
    · exact .of_eq rfl
    split
    · exact .of_eq rfl
    · exact (sends_assembleCharacter _ _ _ _).after rfl
    · exact .of_eq rfl
  · exact .refl s

theorem sends_laneAbort (i : LaneId) (f : Lane → Lane) (s : State) : Sends s (laneAbort i f s) :=
  ((sends_abort (fun t => decide (t.lane = i)) allContexts (s.mapLane i Lane.abort)).after rfl).before rfl

theorem sends_takeBreak (i : LaneId) (s : State) : Sends s (takeBreak i s) := by
  unfold takeBreak; split
  · exact (sends_laneAbort _ _ _).after rfl
  · exact .refl s

theorem sends_takeSetLane (i : LaneId) (serve : Bool) (r : Fin 5) (s : State) : Sends s (takeSetLane i serve r s) := by
  unfold takeSetLane; dsimp only; repeat' split
  · exact .of_eq rfl
  · exact .of_eq rfl
  · exact sends_laneAbort _ _ s
  · exact .refl s
  · exact sends_laneAbort _ _ s

theorem sends_takeSetDrop (i : LaneId) (d : DropId) (e : Enrolment) (s : State) : Sends s (takeSetDrop i d e s) := by
  unfold takeSetDrop; dsimp only; split_ifs
  · exact .refl s
  · exact (sends_abort _ _ _).after rfl
  · exact .of_eq rfl
  · exact .of_eq rfl

/-! ## Unit Management and the rule store -/

theorem sends_setLane (q a b c : Octet) (s : State) : Sends s (manageSetLane q a b c s) := by
  unfold manageSetLane; repeat' split
  · exact sends_answer _ _ _ _ (sends_takeSetLane _ _ _ s)
  · exact sends_answer _ _ _ _ (sends_takeSetLane _ _ _ s)
  · exact sends_answer _ _ _ _ (.refl s)
  · exact sends_answer _ _ _ _ (.refl s)

theorem sends_setDrop (q a b c : Octet) (s : State) : Sends s (manageSetDrop q a b c s) := by
  unfold manageSetDrop; split
  · exact sends_answer _ _ _ _ (sends_takeSetDrop _ _ _ s)
  · exact sends_answer _ _ _ _ (.refl s)

theorem sends_setDay (q : Octet) (d : Day) (s : State) : Sends s (manageSetDay q d s) := by
  unfold manageSetDay; split_ifs
  all_goals exact sends_answer _ _ _ _ (.of_eq rfl)

theorem sends_setOverride (q v : Octet) (s : State) : Sends s (manageSetOverride q v s) := by
  unfold manageSetOverride; split
  all_goals exact sends_answer _ _ _ _ (.of_eq rfl)

theorem sends_quiesce (q : Octet) (s : State) : Sends s (manageQuiesce q s) := by
  unfold manageQuiesce; repeat' split
  · exact sends_answer _ _ _ _ (.of_eq rfl)
  · exact .of_eq rfl
  · exact sends_answer _ _ _ _ (.refl s)
  · exact sends_answer _ _ _ _ (.refl s)

theorem sends_resumeService (q : Octet) (s : State) : Sends s (manageResumeService q s) := by
  unfold manageResumeService; dsimp only; split
  · exact sends_answer _ _ _ _ (sends_answer _ _ _ _ (.of_eq rfl))
  · exact sends_answer _ _ _ _ (.of_eq rfl)

theorem sends_flushCache (q : Octet) (s : State) : Sends s (manageFlushCache q s) := by
  unfold manageFlushCache; split
  all_goals exact sends_answer _ _ _ _ (.of_eq rfl)

theorem sends_readCounters (q c : Octet) (s : State) : Sends s (manageReadCounters q c s) := by
  unfold manageReadCounters; split
  all_goals exact sends_answer _ _ _ _ (.of_eq rfl)

theorem sends_tableClear (q b : Octet) (s : State) : Sends s (takeTableClear q b s) := by
  unfold takeTableClear; repeat' split
  · exact sends_answer _ _ _ _ (.refl s)
  · exact sends_answer _ _ _ _ (.refl s)
  · exact .of_eq rfl

theorem sends_tableWrite (q b e : Octet) (vs : List Octet) (s : State) : Sends s (takeTableWrite q b e vs s) := by
  unfold takeTableWrite; split
  · exact sends_answer _ _ _ _ (.refl s)
  dsimp only; split_ifs
  case' neg => exact .of_eq rfl
  all_goals exact sends_answer _ _ _ _ (.of_eq rfl)

theorem sends_tableClose (q b : Octet) (s : State) : Sends s (takeTableClose q b s) := by
  unfold takeTableClose; split
  · exact sends_answer _ _ _ _ (.refl s)
  dsimp only; split_ifs
  case' neg => exact .of_eq rfl
  all_goals exact sends_answer _ _ _ _ (.of_eq rfl)

theorem sends_tableAbort (q : Octet) (s : State) : Sends s (takeTableAbort q s) := by
  unfold takeTableAbort; split
  · exact sends_answer _ _ _ _ (.refl s)
  · exact sends_answer _ _ _ _ (sends_answer _ _ _ _ (.of_eq rfl))

theorem sends_tableStatusClear (q : Octet) (s : State) : Sends s (takeTableStatusClear q s) := by
  unfold takeTableStatusClear; split
  all_goals exact sends_answer _ _ _ _ (.of_eq rfl)

theorem sends_clearCompletes (s : State) : Sends s (clearCompletes s) := by
  unfold clearCompletes; split
  · exact sends_answer _ _ _ _ (.of_eq rfl)
  · exact .refl s

theorem sends_writeCompletes (s : State) : Sends s (writeCompletes s) := by
  unfold writeCompletes; split
  · exact sends_answer _ _ _ _ (.of_eq rfl)
  · exact .refl s

theorem wire_blockAvailable (b : BlockId) (s : State) : wire (blockAvailable b s) = wire s :=
  wire_foldl_mapTxn (fun c => c) (fun _ x => { x with ruleWait := none }) _ s

theorem sends_closeCompletes (s : State) : Sends s (closeCompletes s) := by
  unfold closeCompletes; split
  · refine Sends.before ?_ (wire_blockAvailable _ _)
    exact sends_answer _ _ _ _ (.of_eq rfl)
  · exact .refl s

end Sys2Proof.BranchLink

namespace Sys2Proof.BranchLink

open Sys2Proof Sys2Proof.Machine Sys2Proof.Safety

/-! ## The end of a transmission, an octet time, a reset -/

/-- The frame in transmission leaves the transmitter, and the next one is in transmission from its first octet (R33). -/
def ended (b : Bli) : Bli := { b.start with transmitting := none, sent := 0 }.start

/-- The mark of a frame's sender clears (R86, R109, R185). -/
def Wire.cleared (w : Wire) (f : Frame) : Wire :=
  match sender f with
  | some x => w.setMark x false
  | none => w

@[simp] theorem Wire.cleared_link (w : Wire) (f : Frame) : (w.cleared f).link = w.link := by
  unfold Wire.cleared; split <;> rfl

@[simp] theorem Wire.cleared_owed (w : Wire) (f : Frame) : (w.cleared f).owed = w.owed := by
  unfold Wire.cleared; split <;> rfl

/-- The wire a reset leaves (R24, R38, R83, R106, R184). -/
def resetWire (phase : RxPhase) (straps : BitVec 6) (cause : ResetCause) : Wire :=
  ⟨half (Bli.reset phase straps cause), fun _ => false, fun _ => none⟩

theorem wire_resetAll (phase : RxPhase) (straps : BitVec 6) (cause : ResetCause) (s : State) :
    wire (resetAll phase straps cause s) = resetWire phase straps cause := by
  have marks : mark (resetAll phase straps cause s) = fun _ => false := by
    funext y
    cases y with
    | slot i => simp [mark, State.slot, resetAll, State.afterReset, FillUnit.reset]
    | context c => simp [mark, State.commitRec, resetAll, State.afterReset, CommitRecord.reset]
    | management => rfl
  have owed : (fun c => ((resetAll phase straps cause s).commitRec c).owed) = fun _ => none := by
    funext c; simp [State.commitRec, resetAll, State.afterReset, CommitRecord.reset]
  exact congrArg₂ (Wire.mk _) marks owed

theorem half_octetTime (b : Bli) : half b.octetTime = (half b).octetTime := by
  rcases b with ⟨_, _, _, _, _ | ⟨f, fs⟩, _ | g, _, _, _⟩ <;> rfl

theorem half_ended (b : Bli) : half (ended b) = ended (half b) := by
  rcases b with ⟨_, _, _, _, _ | ⟨f, _ | ⟨g, fs⟩⟩, _ | h, _, _, _⟩ <;> rfl

theorem endFrame_idle {s : State} (h : s.bli.start.transmitting = none) : endFrame s = s := by
  simp [endFrame, h]

theorem endFrame_busy {s : State} {f : Frame} (h : s.bli.start.transmitting = some f) :
    endFrame s = frameSent f { s with bli := ended s.bli } := by
  simp only [endFrame, h]; rfl

/-- The sender is told: its mark clears, and what it owes to the line is offered (R86, R109, R185). -/
theorem frameSent_offers (f : Frame) (s : State) :
    Relation.ReflTransGen Offer ((wire s).cleared f) (wire (frameSent f s)) := by
  cases f with
  | relayUp => exact .refl
  | unitStarted => exact .refl
  | fetch i =>
    have clear := wire_setSlot s i { s.slot i with onLine := false }
    have start : Relation.ReflTransGen Offer ((wire s).setMark (.slot i) false)
      (wire (s.setSlot i { s.slot i with onLine := false })) := by rw [clear]
    unfold frameSent; dsimp only; repeat' split
    · exact start.trans (sends_fetchDue _ _ _ _)
    · exact start
    · exact start
  | update c =>
    unfold frameSent; dsimp only; split
    · next g owed =>
      have offered := Offer.own ((wire s).setMark (.context c) false) (.context c) g (by simp [Wire.setMark])
        (.inr ⟨c, rfl, owed⟩)
      refine (Relation.ReflTransGen.single offered).tail ?_
      rw [wire_sendFrame, wire_setCommitRec]
      have kept : ((wire s).setMark (.context c) false).setMark (.context c) true = (wire s).setMark (.context c) true := by
        simp [Wire.setMark]
      rw [kept]
      exact .drop _ c
    · next owed =>
      rw [wire_setCommitRec]
      have kept : ((wire s).setMark (.context c) false).setOwed c (s.commitRec c).owed = (wire s).setMark (.context c) false :=
        congrArg (fun o => { (wire s).setMark (.context c) false with owed := o }) (Function.update_eq_self c (wire s).owed)
      rw [kept]
      exact .refl
  | mgmtReply =>
    have clear := wire_um s { s.um with replyOnLine := false }
    have start : Relation.ReflTransGen Offer ((wire s).setMark .management false)
      (wire { s with um := { s.um with replyOnLine := false } }) := by rw [clear]
    exact start.trans (sends_pumpReplies _)

/-! ## A property of the wire that every step keeps -/

/-- What an offer keeps, and the end of a transmission, an octet time and a reset. -/
structure WireKept (q : Wire → Prop) : Prop where
  offer : ∀ w v, q w → Offer w v → q v
  octet : ∀ w, q w → q { w with link := w.link.octetTime }
  reset : ∀ phase straps cause w, q w → q (resetWire phase straps cause)
  sent : ∀ w f, q w → w.link.start.transmitting = some f → q (Wire.cleared { w with link := ended w.link } f)

namespace WireKept

variable {q : Wire → Prop}

theorem offers (k : WireKept q) {w v : Wire} (h : q w) (g : Relation.ReflTransGen Offer w v) : q v := by
  induction g with
  | refl => exact h
  | tail _ last ih => exact k.offer _ _ ih last

theorem sends (k : WireKept q) {s t : State} (h : q (wire s)) (g : Sends s t) : q (wire t) := k.offers h g

theorem endFrame (k : WireKept q) (s : State) (h : q (wire s)) : q (wire (Machine.endFrame s)) := by
  cases e : s.bli.start.transmitting with
  | none => rw [endFrame_idle e]; exact h
  | some f =>
    have taken : (half s.bli).start.transmitting = some f := by rw [← half_start]; exact e
    have gone := k.sent (wire s) f h taken
    rw [endFrame_busy e]
    refine k.offers ?_ (frameSent_offers f _)
    rw [wire_bli, half_ended]
    exact gone

theorem keeps (k : WireKept q) : Keeps fun s => q (wire s) where
  queue _ _ h := h
  receiver s b h queue transmitting sent unit := by
    have same : half b = half s.bli := by simp only [half, queue, transmitting, sent, unit]
    rw [wire_bli, same]; exact h
  octet s h := by
    have e : wire (octetTime s) = { wire s with link := (wire s).link.octetTime } := by
      rw [octetTime, wire_bli, half_octetTime]; rfl
    rw [e]; exact k.octet _ h
  reset phase straps cause s h := by rw [wire_resetAll]; exact k.reset phase straps cause _ h
  power _ h := h
  breakEnd _ _ h := h
  gapEnd _ _ h := h
  turnStart _ _ h := h
  transmitEnd _ _ h := h
  frameGapOut _ _ h := h
  quietEnd _ _ h := h
  windowOut _ _ h := h
  heldStands _ _ h := h
  character i x s h := k.sends h (sends_takeCharacter i x s)
  lineBreak i s h := k.sends h (sends_takeBreak i s)
  reply _ _ _ _ h := h
  segment _ _ _ _ _ _ _ _ h := k.sends h (sends_takeSegment ..)
  absent _ _ h := k.sends h (sends_takeAbsent ..)
  defer _ _ _ h := k.sends h (sends_takeDefer ..)
  notice _ _ _ _ h := k.sends h (sends_takeInvalidate ..)
  result _ _ _ _ _ h := k.sends h (sends_takeResult ..)
  delayEnd _ _ h := k.sends h (sends_endDelay ..)
  fetchOut _ _ h := k.sends h (sends_fetchTimerOut ..)
  commitOut _ _ h := k.sends h (sends_commitTimerOut ..)
  deadline _ _ h := k.sends h (sends_deadlineFalls ..)
  sent := k.endFrame
  decision _ _ h := k.sends h (sends_takeDecision ..)
  setLane _ _ _ _ _ h _ := k.sends h (sends_setLane ..)
  setDrop _ _ _ _ _ h _ := k.sends h (sends_setDrop ..)
  setDay _ _ _ h _ := k.sends h (sends_setDay ..)
  setOverride _ _ _ h _ := k.sends h (sends_setOverride ..)
  quiesce _ _ h _ := k.sends h (sends_quiesce ..)
  resumeService _ _ h _ := k.sends h (sends_resumeService ..)
  flushCache _ _ h _ := k.sends h (sends_flushCache ..)
  readCounters _ _ _ h _ := k.sends h (sends_readCounters ..)
  answered _ _ _ _ s h _ := k.sends h (sends_answer _ _ _ _ (.refl s))
  tableClear _ _ _ h _ := k.sends h (sends_tableClear ..)
  tableWrite _ _ _ _ _ h _ := k.sends h (sends_tableWrite ..)
  tableClose _ _ _ h _ := k.sends h (sends_tableClose ..)
  tableAbort _ _ h _ := k.sends h (sends_tableAbort ..)
  tableStatusClear _ _ h _ := k.sends h (sends_tableStatusClear ..)
  clearDone _ h := k.sends h (sends_clearCompletes _)
  writeDone _ h := k.sends h (sends_writeCompletes _)
  closeDone _ h := k.sends h (sends_closeCompletes _)

end WireKept

/-! ## The transmitter's own operations -/

@[simp] theorem held_start (b : Bli) : b.start.held = b.held := by
  rcases b with ⟨_, _, _, _, _ | ⟨f, fs⟩, _ | g, _, _, _⟩ <;> rfl

@[simp] theorem held_enqueue (b : Bli) (f : Frame) : (b.enqueue f).held = b.held ++ [f] := by
  exact (held_start _).trans (List.append_assoc _ _ _).symm

theorem held_ended (b : Bli) : (ended b).held = b.start.txQueue := held_start _

/-- The frame in transmission is the oldest of those held, and the rest are held after its end. -/
theorem held_taken {b : Bli} {f : Frame} (h : b.start.transmitting = some f) : b.held = f :: (ended b).held := by
  rw [← held_start b, held_ended, Bli.held, h]; rfl

theorem octetTime_busy {b : Bli} {f : Frame} (h : b.start.transmitting = some f) :
    b.octetTime = { b.start with sent := min (b.start.sent + 1) (f.line b.unitNumber).length } := by
  simp [Bli.octetTime, h]

theorem octetTime_idle {b : Bli} (h : b.start.transmitting = none) : b.octetTime = b.start := by
  simp [Bli.octetTime, h]

@[simp] theorem held_octetTime (b : Bli) : b.octetTime.held = b.held := by
  rw [← held_start b]
  cases h : b.start.transmitting with
  | none => rw [octetTime_idle h]
  | some f => rw [octetTime_busy h]; rfl

/-- The transmitter is idle only with the queue empty (R33). -/
theorem start_idle {b : Bli} (h : b.start.transmitting = none) : b.start.txQueue = [] := by
  rcases b with ⟨_, _, _, _, _ | ⟨f, fs⟩, _ | g, _, _, _⟩
  · rfl
  all_goals cases h

/-! ## The senders' shares (R34, R35) -/

theorem fetch_sender (i : SlotId) (f : Frame) : isFetchOf i f = decide (sender f = some (.slot i)) := by
  cases f <;> simp [isFetchOf, sender]

theorem update_sender (c : CtxId) (f : Frame) : isUpdateOf c f = decide (sender f = some (.context c)) := by
  cases f <;> simp [isUpdateOf, sender]

theorem mgmtReply_sender (f : Frame) : isMgmtReply f = decide (sender f = some .management) := by
  cases f <;> simp [isMgmtReply, sender]

/-- The frames of one sender among some. -/
def framesOf (x : Sender) (fs : List Frame) : Nat := fs.countP fun f => decide (sender f = some x)

/-- `LineShares` with one clause for all senders: exactly one frame is held for the line while the mark is set, and none
while it is clear. -/
structure Shares (w : Wire) : Prop where
  relays : w.link.held.countP Frame.isRelayUp ≤ 19
  own : ∀ x, framesOf x w.link.held = if w.mark x then 1 else 0
  started : w.link.held.countP isUnitStarted ≤ 1
  owed : ∀ c f, w.owed c = some f → sender f = some (.context c)
  idle : w.link.transmitting = none → w.link.txQueue = [] ∨ ∃ cause, w.link.txQueue = [.unitStarted cause]

theorem lineShares_iff (s : State) : LineShares s ↔ Shares (wire s) := by
  have fetches : ∀ i, s.bli.held.countP (isFetchOf i) = framesOf (.slot i) s.bli.held := fun i =>
    congrArg (s.bli.held.countP ·) (funext (fetch_sender i))
  have updates : ∀ c, s.bli.held.countP (isUpdateOf c) = framesOf (.context c) s.bli.held := fun c =>
    congrArg (s.bli.held.countP ·) (funext (update_sender c))
  have replies : s.bli.held.countP isMgmtReply = framesOf .management s.bli.held :=
    congrArg (s.bli.held.countP ·) (funext mgmtReply_sender)
  constructor
  · intro h
    refine ⟨h.relays, fun x => ?_, h.started, fun c f e => ?_, h.idle⟩
    · cases x with
      | slot i => exact (fetches i).symm.trans (h.fetches i)
      | context c => exact (updates c).symm.trans (h.updates c)
      | management => exact replies.symm.trans h.replies
    · simpa [update_sender] using h.owed c f e
  · intro h
    refine ⟨h.relays, fun i => ?_, fun c => ?_, ?_, h.started, fun c f e => ?_, h.idle⟩
    · exact (fetches i).trans (h.own (.slot i))
    · exact (updates c).trans (h.own (.context c))
    · exact replies.trans (h.own .management)
    · simpa [update_sender] using h.owed c f e

/-- A frame of a sender is no RELAY_UP and no UNIT_STARTED. -/
theorem owned_kinds {f : Frame} {x : Sender} (h : sender f = some x) : f.isRelayUp = false ∧ isUnitStarted f = false := by
  cases f
  case relayUp => cases h
  case unitStarted => cases h
  all_goals exact ⟨rfl, rfl⟩

/-- The shares after a frame has joined the line: the transmitter is not idle. -/
theorem Shares.enqueue {w v : Wire} {f : Frame} (h : Shares w) (link : v.link = w.link.enqueue f)
    (relays : (w.link.held ++ [f]).countP Frame.isRelayUp ≤ 19)
    (own : ∀ x, framesOf x (w.link.held ++ [f]) = if v.mark x then 1 else 0)
    (started : isUnitStarted f = false) (owed : v.owed = w.owed) : Shares v where
  relays := by rw [link, held_enqueue]; exact relays
  own x := by rw [link, held_enqueue]; exact own x
  started := by
    rw [link, held_enqueue, List.countP_append, List.countP_singleton, if_neg (by simp [started])]
    exact h.started
  owed := by rw [owed]; exact h.owed
  idle e := by rw [link] at e ⊢; exact .inl (start_idle e)

theorem shares_offer {w v : Wire} (h : Shares w) (g : Offer w v) : Shares v := by
  cases g with
  | relay i d body room =>
    refine h.enqueue rfl ?_ (fun x => ?_) rfl rfl
    · rw [List.countP_append]; exact Nat.add_le_add_right (Nat.le_of_lt_succ room) 1
    · rw [framesOf, List.countP_append]; exact h.own x
  | own x f clear kind =>
    have owner : sender f = some x := by
      rcases kind with kind | ⟨c, rfl, owed⟩
      · exact kind
      · exact h.owed c f owed
    obtain ⟨noRelay, noStart⟩ := owned_kinds owner
    refine h.enqueue rfl ?_ (fun y => ?_) noStart rfl
    · rw [List.countP_append, List.countP_singleton, if_neg (by simp [noRelay])]; exact h.relays
    · have before := h.own y
      rw [framesOf, List.countP_append, List.countP_singleton]
      rw [framesOf] at before
      by_cases e : y = x
      · subst e; simp [before, clear, owner, Wire.setMark, Wire.send]
      · simp [before, owner, Wire.setMark, Wire.send, e, Ne.symm e]
  | owe c f kind =>
    refine ⟨h.relays, h.own, h.started, fun d g e => ?_, h.idle⟩
    by_cases hd : d = c
    · subst hd; simp only [Wire.setOwed, Function.update_self, Option.some.injEq] at e; rwa [← e]
    · exact h.owed d g (by simpa [Wire.setOwed, hd] using e)
  | drop c =>
    refine ⟨h.relays, h.own, h.started, fun d g e => ?_, h.idle⟩
    by_cases hd : d = c
    · subst hd; simp [Wire.setOwed] at e
    · exact h.owed d g (by simpa [Wire.setOwed, hd] using e)

/-- The frame that leaves the line was its sender's only one, and the sender's mark clears. -/
theorem shares_ended {w : Wire} {f : Frame} (h : Shares w) (taken : w.link.start.transmitting = some f) :
    Shares (Wire.cleared { w with link := ended w.link } f) := by
  have held := held_taken taken
  constructor
  · simp only [Wire.cleared_link]
    have := h.relays
    rw [held, List.countP_cons] at this
    omega
  · intro x
    have before := h.own x
    rw [framesOf, held, List.countP_cons] at before
    rw [Wire.cleared_link, framesOf]
    unfold Wire.cleared
    split
    · next y owner =>
      by_cases e : x = y
      · subst e
        have : (if w.mark x = true then 1 else 0) ≤ 1 := by split <;> omega
        simp only [owner, decide_true, if_true] at before
        simp only [Wire.setMark, Function.update_self]
        rw [if_neg Bool.false_ne_true]
        omega
      · simpa [Wire.setMark, owner, e, Ne.symm e] using before
    · next none => simpa [none] using before
  · simp only [Wire.cleared_link]
    have := h.started
    rw [held, List.countP_cons] at this
    omega
  · rw [Wire.cleared_owed]; exact h.owed
  · intro e
    rw [Wire.cleared_link] at e ⊢
    exact .inl (start_idle e)

theorem shares_kept : WireKept Shares where
  offer _ _ h g := shares_offer h g
  octet w h := by
    refine ⟨?_, ?_, ?_, h.owed, fun e => .inl ?_⟩
    · rw [held_octetTime]; exact h.relays
    · intro x; rw [held_octetTime]; exact h.own x
    · rw [held_octetTime]; exact h.started
    · cases taken : w.link.start.transmitting with
      | none => rw [octetTime_idle taken]; exact start_idle taken
      | some f => rw [octetTime_busy taken] at e; exact absurd (taken.symm.trans e) (by simp)
  reset _ _ cause _ _ := by
    refine ⟨Nat.zero_le _, fun _ => rfl, Nat.le_refl 1, nofun, fun _ => .inr ⟨cause, rfl⟩⟩
  sent _ _ h taken := shares_ended h taken

/-! ## The transmitter's position (R24) -/

/-- `TransmitterShape` of a transmitter. -/
def Placed (w : Wire) : Prop :=
  match w.link.transmitting with
  | some f => w.link.sent ≤ (f.line w.link.unitNumber).length
  | none => w.link.sent = 0

/-- Starting leaves the position where it was, or at the first octet of the frame taken up. -/
theorem sent_start (b : Bli) : b.start.sent = 0 ∨ b.start.transmitting = b.transmitting ∧ b.start.sent = b.sent := by
  unfold Bli.start; split
  · exact .inl rfl
  · exact .inr ⟨rfl, rfl⟩

theorem placed_zero {w : Wire} (h : w.link.sent = 0) : Placed w := by
  unfold Placed; rw [h]; split
  · exact Nat.zero_le _
  · rfl

theorem placed_start {w : Wire} (h : Placed w) (queue : List Frame) :
    Placed { w with link := { w.link with txQueue := queue }.start } := by
  rcases sent_start { w.link with txQueue := queue } with zero | ⟨same, sent⟩
  · exact placed_zero zero
  · unfold Placed at h ⊢
    rw [same, sent, Bli.start_unitNumber]; exact h

theorem placed_kept : WireKept Placed where
  offer w v h g := by
    cases g with
    | relay => exact placed_start h _
    | own => exact placed_start h _
    | owe => exact h
    | drop => exact h
  octet w h := by
    cases taken : w.link.start.transmitting with
    | none => rw [octetTime_idle taken]; exact placed_start h w.link.txQueue
    | some f =>
      rw [octetTime_busy taken]
      unfold Placed
      simp only [taken, Bli.start_unitNumber]
      exact Nat.min_le_right _ _
  reset _ _ _ _ _ := placed_zero rfl
  sent w f _ _ := by
    refine placed_zero ?_
    rw [Wire.cleared_link]
    rcases sent_start { w.link.start with transmitting := none, sent := 0 } with zero | ⟨-, sent⟩
    · exact zero
    · exact sent

/-- Settles O56: the shares, with one clause for all the senders that have a mark, and the position are kept by every
offer of a frame, by the end of a transmission, by an octet time and by a reset. -/
theorem lineSharesKept : Obligations.LineSharesKept := by
  refine ⟨fun s t h e => ?_, fun s t h e => placed_kept.keeps.step s t h e⟩
  rw [lineShares_iff] at h ⊢
  exact shares_kept.keeps.step s t h e

end Sys2Proof.BranchLink

namespace Sys2Proof.BranchLink

open Sys2Proof Sys2Proof.Machine Sys2Proof.Safety

/-! ## Words in octets -/

theorem beOctets_getElem (w n j : Nat) (h : j < (beOctets w n).length) :
    (beOctets w n)[j] = octet (n / 256 ^ (w - 1 - j)) := by
  induction w generalizing j with
  | zero => simp at h
  | succ w ih =>
    cases j with
    | zero => rfl
    | succ j =>
      have h' : j < (beOctets w n).length := by simpa using h
      simp only [beOctets, List.getElem_cons_succ]
      rw [ih j h', show w + 1 - 1 - (j + 1) = w - 1 - j by omega]

/-- The octets of a word are those of its number. -/
theorem octetsOf_eq {n : Nat} (w : Nat) (v : BitVec n) : octetsOf w v = beOctets w v.toNat := by
  refine List.ext_getElem (by simp [octetsOf]) fun j hj hj' => ?_
  rw [beOctets_getElem]
  apply BitVec.eq_of_toNat_eq
  simp [octetsOf, Nat.shiftRight_eq_div_pow, pow_mul]

/-- Only what fits shows in the octets of a number. -/
theorem beOctets_mod (w n : Nat) : beOctets w (n % 256 ^ w) = beOctets w n := by
  refine List.ext_getElem (by simp) fun j hj hj' => ?_
  rw [beOctets_getElem, beOctets_getElem]
  apply BitVec.eq_of_toNat_eq
  have hj : j < w := by simpa using hj
  have split : 256 ^ w = 256 ^ (w - 1 - j) * 256 ^ (j + 1) := by rw [← pow_add]; congr 1; omega
  rw [octet_toNat, octet_toNat, split, Nat.mod_mul_right_div_self, pow_succ, Nat.mod_mul_left_mod]

/-! ## The frames held for the line, as a list -/

/-- A frame joins the tail of the frames held, the oldest of them in transmission (R33). -/
theorem enqueue_eq (b : Bli) (f : Frame) : b.enqueue f = lineWith b (b.held ++ [f]) := by
  rcases b with ⟨_, _, _, _, _ | ⟨g, fs⟩, _ | h, _, _, _⟩ <;> rfl

theorem sendFrame_eq (f : Frame) (s : State) : sendFrame f s = { s with bli := lineWith s.bli (s.bli.held ++ [f]) } :=
  congrArg (fun b => { s with bli := b }) (enqueue_eq s.bli f)

theorem start_eq {b : Bli} (h : b.held ≠ []) : b.start = lineWith b b.held := by
  rcases b with ⟨_, _, _, _, _ | ⟨g, fs⟩, _ | k, _, _, _⟩
  · exact absurd rfl h
  all_goals rfl

theorem start_of_empty {b : Bli} (h : b.held = []) : b.start = b ∧ b.start.transmitting = none := by
  rcases b with ⟨_, _, _, _, _ | ⟨g, fs⟩, _ | k, _, _, _⟩
  · exact ⟨rfl, rfl⟩
  all_goals cases h

theorem start_taken {b : Bli} {f : Frame} {queue : List Frame} (h : b.held = f :: queue) :
    b.start.transmitting = some f := by rw [start_eq (by simp [h]), h]; rfl

/-- The link with the frames held for the line after the end of a transmission (R33). -/
def nextUp (b : Bli) (frames : List Frame) : Bli :=
  { b with transmitting := frames.head?, txQueue := frames.tail, sent := 0 }

theorem ended_eq {b : Bli} {f : Frame} {queue : List Frame} (h : b.held = f :: queue) : ended b = nextUp b queue := by
  have taken : b.start = lineWith b (f :: queue) := by rw [start_eq (by simp [h]), h]
  rw [ended, taken]
  cases queue <;> rfl

theorem nextUp_enqueue (b : Bli) (frames : List Frame) (g : Frame) :
    (nextUp b frames).enqueue g = nextUp b (frames ++ [g]) := by
  cases frames <;> rfl

/-- The state with the frames held for the line after the end of a transmission. -/
def upNext (frames : List Frame) (s : State) : State := { s with bli := nextUp s.bli frames }

/-- A frame sent behind the end of a transmission, whatever its sender's mark becomes. -/
theorem sendFrame_upNext (frames : List Frame) (g : Frame) (s : State) :
    sendFrame g (upNext frames s) = upNext (frames ++ [g]) s :=
  congrArg (fun b => { s with bli := b }) (nextUp_enqueue s.bli frames g)

/-! ## RELAY_UP (R34) -/

theorem offerRelay_admitted {s : State} (room : s.bli.relaysHeld < 19) (lane : LaneId) (drop : DropId)
    (body : List Octet) : offerRelay lane drop body s = sendFrame (.relayUp lane drop body) s := if_pos room

theorem offerRelay_dropped {s : State} (full : 19 ≤ s.bli.relaysHeld) (lane : LaneId) (drop : DropId)
    (body : List Octet) : offerRelay lane drop body s = s.countLink .relaysDropped := if_neg (by omega)

theorem relaysHeld_relayUp (s : State) (lane : LaneId) (drop : DropId) (body : List Octet) :
    (sendFrame (.relayUp lane drop body) s).bli.relaysHeld = s.bli.relaysHeld + 1 := by
  simp [Bli.relaysHeld, sendFrame, Frame.isRelayUp]

/-- Settles O22: a frame sent joins the tail; a RELAY_UP is sent below 19 held, and counted as dropped at 19. -/
theorem relayShareAtOffer : Obligations.RelayShareAtOffer := by
  intro s lane drop body
  refine ⟨fun f => sendFrame_eq f s, fun room => ?_, fun full => offerRelay_dropped full lane drop body, fun share => ?_⟩
  · rw [offerRelay_admitted room]
    exact ⟨sendFrame_eq _ s, relaysHeld_relayUp s lane drop body⟩
  · by_cases room : s.bli.relaysHeld < 19
    · rw [offerRelay_admitted room, RelayShare, relaysHeld_relayUp]; omega
    · rw [offerRelay_dropped (by omega)]; exact share

/-! ## Management replies (R185) -/

theorem pumpReplies_waiting {s : State} (h : s.um.replyOnLine = true) : pumpReplies s = s := by
  simp [pumpReplies, h]

theorem pumpReplies_none {s : State} (h : s.um.replies = []) : pumpReplies s = s := by
  simp [pumpReplies, h]

theorem pumpReplies_oldest {s : State} {r : MgmtReply} {rs : List MgmtReply} (clear : s.um.replyOnLine = false)
    (h : s.um.replies = r :: rs) : pumpReplies s = sendFrame (.mgmtReply r.seq r.command r.result r.fields)
      (s.mapUm fun u => { u with replies := rs, replyOnLine := true }) := by
  simp [pumpReplies, clear, h, State.mapUm]

theorem answer_eq (seq command : Octet) (result : ResultCode) (fields : List Octet) (s : State) :
    answer seq command result fields s =
      pumpReplies (s.mapUm fun u => { u with replies := u.replies ++ [⟨seq, command, result, fields⟩] }) := rfl

theorem answer_waits {s : State} (waiting : s.um.replyOnLine = true) (seq command : Octet) (result : ResultCode)
    (fields : List Octet) : answer seq command result fields s =
      s.mapUm fun u => { u with replies := u.replies ++ [⟨seq, command, result, fields⟩] } :=
  pumpReplies_waiting waiting

theorem answer_offers {s : State} {seq command : Octet} {result : ResultCode} {fields : List Octet} {r : MgmtReply}
    {rs : List MgmtReply} (clear : s.um.replyOnLine = false)
    (list : s.um.replies ++ [⟨seq, command, result, fields⟩] = r :: rs) : answer seq command result fields s =
      sendFrame (.mgmtReply r.seq r.command r.result r.fields)
        (s.mapUm fun u => { u with replies := rs, replyOnLine := true }) := by
  rw [answer_eq]; exact pumpReplies_oldest clear list

/-- Settles O54: behind a MGMT_REPLY on the line a reply waits; else the oldest of the list is offered, which is the new
one only when none waited. -/
theorem repliesLeaveInOrder : Obligations.RepliesLeaveInOrder := by
  intro s seq command result fields
  refine ⟨fun waiting => answer_waits waiting .., fun clear none => ?_, fun r rs clear some => ?_⟩
  · rw [answer_offers (r := ⟨seq, command, result, fields⟩) (rs := []) clear (by simp [none]), sendFrame_eq]
    simp [State.mapUm, none]
  · rw [answer_offers clear (by rw [some]; rfl), sendFrame_eq]
    rfl

/-! ## TRANSMIT_FRAME_END (R33, R86, R109, R185) -/

theorem exec_transmitFrameEnd {s : State} {f : Frame} {queue : List Frame} (power : s.powered = true)
    (h : s.bli.held = f :: queue) :
    exec .transmitFrameEnd s = .next (frameSent f (upNext queue s)) := by
  refine congrArg Host.Outcome.next ?_
  rw [KioskLanes.live_powered power, endFrame_busy (start_taken h), ended_eq h]; rfl

theorem fetch_of {i : SlotId} {f : Frame} (h : isFetchOf i f = true) :
    ∃ gen k key first count, f = .fetch i gen k key first count := by
  cases f <;> simp_all [isFetchOf]

theorem update_of {c : CtxId} {f : Frame} (h : isUpdateOf c f = true) :
    ∃ gen attempt entries reference, f = .update c gen attempt entries reference := by
  cases f <;> simp_all [isUpdateOf]

theorem mgmtReply_of {f : Frame} (h : isMgmtReply f = true) :
    ∃ seq command result fields, f = .mgmtReply seq command result fields := by
  cases f <;> simp_all [isMgmtReply]

theorem frameSent_unmarked {f : Frame} (h : f.isRelayUp = true ∨ isUnitStarted f = true) (s : State) :
    frameSent f s = s := by
  cases f
  case relayUp => rfl
  case unitStarted => rfl
  all_goals simp [Frame.isRelayUp, isUnitStarted] at h

@[simp] theorem setSlot_setSlot (s : State) (i : SlotId) (x y : FillSlot) : (s.setSlot i x).setSlot i y = s.setSlot i y := by
  simp [State.setSlot]

theorem fetchDue_clear {i : SlotId} {s : State} {g : Fill} {first count : Nat} (fill : (s.slot i).fill = some g)
    (clear : (s.slot i).onLine = false) :
    fetchDue i first count s = sendFrame (.fetch i (s.slot i).gen g.kind g.key first count)
      (s.setSlot i { s.slot i with fill := some { g with owed := none }, onLine := true }) := by
  simp [fetchDue, fill, clear]

/-- A slot that owes no FETCH has its mark cleared (R86). -/
theorem frameSent_fetch {i : SlotId} {f : Frame} (kind : isFetchOf i f = true) {s : State}
    (none : ∀ g, (s.slot i).fill = some g → g.owed = none) :
    frameSent f s = s.setSlot i { s.slot i with onLine := false } := by
  obtain ⟨_, _, _, _, _, rfl⟩ := fetch_of kind
  unfold frameSent; dsimp only; split
  · next g fill => rw [none g fill]
  · rfl

/-- A slot that owes a FETCH offers it (R86). -/
theorem frameSent_fetch_owed {i : SlotId} {f : Frame} (kind : isFetchOf i f = true) {s : State} {g : Fill}
    {first count : Nat} (fill : (s.slot i).fill = some g) (owed : g.owed = some (first, count)) :
    frameSent f s = sendFrame (.fetch i (s.slot i).gen g.kind g.key first count)
      (s.setSlot i { s.slot i with onLine := true, fill := some { g with owed := none } }) := by
  obtain ⟨_, _, _, _, _, rfl⟩ := fetch_of kind
  have clear : (s.setSlot i { s.slot i with onLine := false }).slot i = ⟨(s.slot i).gen, some g, false⟩ := by simp [fill]
  have due := fetchDue_clear (first := first) (count := count) (congrArg FillSlot.fill clear)
    (congrArg FillSlot.onLine clear)
  rw [setSlot_setSlot, clear] at due
  simp only [frameSent, fill, owed]
  simp only [fill] at due
  exact due

theorem frameSent_update {c : CtxId} {f : Frame} (kind : isUpdateOf c f = true) {s : State}
    (none : (s.commitRec c).owed = none) : frameSent f s = s.setCommitRec c { s.commitRec c with onLine := false } := by
  obtain ⟨_, _, _, _, rfl⟩ := update_of kind
  simp [frameSent, none]

theorem frameSent_update_owed {c : CtxId} {f g : Frame} (kind : isUpdateOf c f = true) {s : State}
    (owed : (s.commitRec c).owed = some g) :
    frameSent f s = sendFrame g (s.setCommitRec c { s.commitRec c with onLine := true, owed := none }) := by
  obtain ⟨_, _, _, _, rfl⟩ := update_of kind
  simp [frameSent, owed]

/-- With no reply waiting UM's mark clears (R185). -/
theorem frameSent_mgmtReply {f : Frame} (kind : isMgmtReply f = true) {s : State} (none : s.um.replies = []) :
    frameSent f s = s.mapUm fun u => { u with replyOnLine := false } := by
  obtain ⟨_, _, _, _, rfl⟩ := mgmtReply_of kind
  exact pumpReplies_none (s := s.mapUm fun u => { u with replyOnLine := false }) none

/-- The oldest reply waiting is offered (R185). -/
theorem frameSent_mgmtReply_oldest {f : Frame} (kind : isMgmtReply f = true) {s : State} {r : MgmtReply}
    {rs : List MgmtReply} (some : s.um.replies = r :: rs) :
    frameSent f s = sendFrame (.mgmtReply r.seq r.command r.result r.fields)
      (s.mapUm fun u => { u with replies := rs, replyOnLine := true }) := by
  obtain ⟨_, _, _, _, rfl⟩ := mgmtReply_of kind
  exact pumpReplies_oldest (s := s.mapUm fun u => { u with replyOnLine := false }) rfl some

/-! ## Octet times and BTX (R24, R25) -/

theorem step_octetTime {s : State} (power : s.powered = true) (empty : s.pending = []) :
    step s = .next { s with bli := s.bli.octetTime } := by
  unfold step; split
  · exact congrArg Host.Outcome.next (KioskLanes.live_powered power octetTime)
  · next some => rw [empty] at some; cases some

theorem btx_idle {b : Bli} (h : b.transmitting = none) (bit : Fin 8) : b.btx false bit = (0xA5 : Octet).getMsbD bit := by
  simp [Bli.btx, Bli.octetNow, h]

theorem btx_frame {b : Bli} {f : Frame} {o : Octet} (h : b.transmitting = some f)
    (place : (f.line b.unitNumber)[b.sent]? = some o) (bit : Fin 8) : b.btx false bit = o.getMsbD bit := by
  simp [Bli.btx, Bli.octetNow, h, place]

/-! ## The octets of the frames sent (R27, R195, R197) -/

/-- Settles O23: each clause is the rule of the frame's kind for `frameSent`, an octet time, BTX, or a frame's layout. -/
theorem transmitEndStartsNextFrame : Obligations.TransmitEndStartsNextFrame := by
  refine ⟨fun s empty => ?_, fun s f queue power held => ?_, fun s power pending => ⟨fun empty => ?_, fun f queue held => ?_⟩,
    fun b bit => ⟨rfl, fun idle => btx_idle idle bit, fun f o sending place => btx_frame sending place bit⟩, ?_⟩
  · refine congrArg Host.Outcome.next ?_
    have idle := endFrame_idle (start_of_empty empty).2
    unfold live; split
    · exact idle
    · rfl
  · rw [exec_transmitFrameEnd power held]
    dsimp only
    refine ⟨fun kind => ?_, fun i kind none => ?_, fun i g first count kind fill owed => ?_, fun c kind none => ?_,
      fun c g kind owed => ?_, fun kind none => ?_, fun r rs kind some => ?_⟩
    · rw [frameSent_unmarked kind]; rfl
    · rw [frameSent_fetch (s := upNext queue s) kind none]; rfl
    · rw [frameSent_fetch_owed (s := upNext queue s) kind fill owed]
      exact congrArg _ (sendFrame_upNext queue _ (s.setSlot i _))
    · rw [frameSent_update (s := upNext queue s) kind none]; rfl
    · rw [frameSent_update_owed (s := upNext queue s) kind owed]
      exact congrArg _ (sendFrame_upNext queue _ (s.setCommitRec c _))
    · rw [frameSent_mgmtReply (s := upNext queue s) kind none]; rfl
    · rw [frameSent_mgmtReply_oldest (s := upNext queue s) kind some]
      exact congrArg _ (sendFrame_upNext queue _ (s.mapUm fun u => { u with replies := rs, replyOnLine := true }))
  · obtain ⟨same, idle⟩ := start_of_empty empty
    rw [step_octetTime power pending, octetTime_idle idle, same]
  · rw [step_octetTime power pending, octetTime_busy (start_taken held), start_eq (by simp [held])]
    rfl
  · intro unit lane drop slot c gen k key first count attempt entries reference seq command code body fields cause
      number kindCode entry
    have codes : ∀ k : RecordKind, kindCode k = k.code := fun k => by cases k <;> rfl
    have entries' : entry = UpdateEntry.octets reference := funext fun e => by
      unfold UpdateEntry.octets
      simp only [entry, number, codes, octetsOf_eq]
      cases e.image <;> cases reference <;> rfl
    simp only [number, codes, entries', octetsOf_eq]
    refine ⟨rfl, rfl, rfl, rfl, ?_⟩
    cases cause <;> rfl

end Sys2Proof.BranchLink

namespace Sys2Proof.BranchLink

open Sys2Proof Sys2Proof.Machine Sys2Proof.Safety

/-! ## Bits and octets (R25, R26) -/

theorem octetBits_getD (o : Octet) {j : Nat} (h : j < 8) : (octetBits o).getD j false = o.getMsbD j := by
  simp [octetBits, List.getD_eq_getElem?_getD, h]

theorem octetBits_of_eight (a b c d e f g h : Bool) :
    octetBits (octetOfBits [a, b, c, d, e, f, g, h]) = [a, b, c, d, e, f, g, h] := by
  revert a b c d e f g h; decide +kernel

/-- Eight bits are the bits of the octet they form. -/
theorem octetBits_octetOfBits {bits : List Bool} (h : bits.length = 8) : octetBits (octetOfBits bits) = bits := by
  match bits, h with
  | [a, b, c, d, e, f, g, k], _ => exact octetBits_of_eight a b c d e f g k

/-- In HUNT the last eight bits are looked at (R26). -/
theorem receiveBit_hunt {s : State} (seven : s.bli.bits.length = 7) (hunt : s.bli.phase = .hunt) (b : Bool) :
    receiveBit s b = if octetOfBits (s.bli.bits ++ [b]) = 0xA5 then { s with bli := s.bli.foundBoundary }
      else s.withBits (s.bli.bits.drop 1 ++ [b]) := by
  simp only [receiveBit, hunt, List.length_append, List.length_singleton, seven]
  rw [if_neg (by omega), List.drop_append_of_le_length (by omega)]

/-- In FRAME the eighth bit completes an octet (R26). -/
theorem receiveBit_frame {s : State} (seven : s.bli.bits.length = 7) (frame : s.bli.phase = .frame) (b : Bool) :
    receiveBit s b =
      let t := receiveOctet (s.withBits []) (octetOfBits (s.bli.bits ++ [b]))
      if t.bli.phase = .hunt then t.withBits (s.bli.bits.drop 1 ++ [b]) else t := by
  simp only [receiveBit, frame, List.length_append, List.length_singleton, seven]
  rw [if_neg (by omega), List.drop_append_of_le_length (by omega)]

/-! ## Octets in FRAME (R28) -/

/-- The receiver behind a frame that it discards and stays in FRAME (R28). -/
theorem discardFrame_frame {b : Bli} (h : b.phase = .frame) : b.discardFrame .frame =
    { b with assembly := [], escape := false, counters := b.counters.advance .crcLength } := by
  simp [Bli.discardFrame, Bli.count, h]

section Octets
variable {s : State} (frame : s.bli.phase = .frame)
include frame

theorem receiveOctet_idle (escape : s.bli.escape = false) (empty : s.bli.assembly = []) : receiveOctet s 0xA5 = s := by
  simp [receiveOctet, Bli.takeOctet, frame, escape, empty]

theorem receiveOctet_cut (h : s.bli.escape = true ∨ 1 ≤ s.bli.assembly.length ∧ s.bli.assembly.length ≤ 7) :
    receiveOctet s 0xA5 = { s with bli := s.bli.discardFrame .frame } := by
  have short : s.bli.escape = true ∨ s.bli.assembly.length ≠ 0 ∧ s.bli.assembly.length < 8 := h.imp_right fun _ => by omega
  simp only [receiveOctet, Bli.takeOctet, frame, if_pos short, if_true]

theorem receiveOctet_closes (escape : s.bli.escape = false) (long : 8 ≤ s.bli.assembly.length) :
    receiveOctet s 0xA5 = checkFrame s.bli.assembly { s with bli := { s.bli with assembly := [] } } := by
  have whole : ¬ (s.bli.escape = true ∨ s.bli.assembly.length ≠ 0 ∧ s.bli.assembly.length < 8) := by
    simp [escape]; omega
  have some : s.bli.assembly.length ≠ 0 := by omega
  simp only [receiveOctet, Bli.takeOctet, frame, if_neg whole, if_neg some, if_true]

theorem receiveOctet_escape (escape : s.bli.escape = false) :
    receiveOctet s 0xA6 = { s with bli := { s.bli with escape := true } } := by
  simp [receiveOctet, Bli.takeOctet, frame, escape]

/-- A content octet stands for itself, or behind an escape for a delimiter or an escape (R27, R28). -/
theorem receiveOctet_content {o v : Octet} (h : s.bli.escape = true ∧ (o = 0xE5 ∧ v = 0xA5 ∨ o = 0xE6 ∧ v = 0xA6) ∨
    s.bli.escape = false ∧ o ≠ 0xA5 ∧ o ≠ 0xA6 ∧ v = o) : receiveOctet s o = { s with bli := s.bli.addOctet v } := by
  rcases h with ⟨escape, ⟨rfl, rfl⟩ | ⟨rfl, rfl⟩⟩ | ⟨escape, noDelimiter, noEscape, rfl⟩
  · simp [receiveOctet, Bli.takeOctet, frame, escape]
  · simp [receiveOctet, Bli.takeOctet, frame, escape]
  · simp only [receiveOctet, Bli.takeOctet, frame, escape, if_neg noDelimiter, if_neg noEscape]
    rfl

theorem receiveOctet_fault {o : Octet} (escape : s.bli.escape = true) (h : o ≠ 0xA5 ∧ o ≠ 0xE5 ∧ o ≠ 0xE6) :
    receiveOctet s o = { s with bli := s.bli.discardFrame .hunt } := by
  obtain ⟨a, b, c⟩ := h
  simp only [receiveOctet, Bli.takeOctet, frame, escape, if_neg a, if_neg b, if_neg c, if_true]

end Octets

theorem addOctet_room {b : Bli} (h : b.assembly.length < 488) (v : Octet) :
    b.addOctet v = { b with assembly := b.assembly ++ [v], escape := false } := if_neg (by omega)

theorem addOctet_full {b : Bli} (h : b.assembly.length = 488) (v : Octet) : b.addOctet v = b.discardFrame .hunt :=
  if_pos (by omega)

/-- Settles O18: the rows of R26 and R28 one by one. -/
theorem receiverTable : Obligations.ReceiverTable := by
  refine ⟨fun bits eight j hj => ?_, fun s b => ⟨receiveBit_short s b, fun seven hunt => ?_, fun seven frame t => ?_⟩,
    fun s o frame fits => ⟨?_, ?_, ?_, ?_, fun v content => ⟨fun room => ?_, fun full => ?_⟩, ?_⟩⟩
  · rw [← octetBits_getD _ hj, octetBits_octetOfBits eight]
  · rw [receiveBit_hunt seven hunt]
    exact ⟨fun found => if_pos found, fun other => if_neg other⟩
  · rintro rfl
    rw [receiveBit_frame seven frame]
    exact ⟨fun stays => if_neg fun lost => RxPhase.noConfusion (stays.symm.trans lost), fun lost => if_pos lost⟩
  · rintro rfl escape empty
    exact receiveOctet_idle frame escape empty
  · rintro rfl cut
    rw [receiveOctet_cut frame cut, discardFrame_frame frame]
  · rintro rfl escape long
    exact receiveOctet_closes frame escape long
  · rintro rfl escape
    exact receiveOctet_escape frame escape
  · rw [receiveOctet_content frame content, addOctet_room room]
  · rw [receiveOctet_content frame content, addOctet_full full]; rfl
  · intro escape a b c
    exact receiveOctet_fault frame escape ⟨a, b, c⟩

/-! ## RELAY_DOWN (R37) -/

/-- Settles O21: a lane or drop out of range is a late tag, any other names its lane and drop. -/
theorem relayDownOffersReply : Obligations.RelayDownOffersReply := by
  intro s lane drop body h fits
  have arrives : exec (.relayDown lane drop body) s = .next (takeRelayDown lane drop body (counted s)) := by
    refine congrArg Host.Outcome.next ?_
    rw [KioskLanes.live_powered h.1]
    refine arrive_listening _ _ s h rfl (by simp only [List.length_cons]; omega) ?_
    exact congrArg some (decide_eq_true ⟨by simp, by simp only [List.length_cons]; omega⟩)
  rw [arrives]
  refine ⟨fun bad => congrArg _ ?_, fun i d hi hd => congrArg _ ?_⟩
  · rcases bad with bad | bad
    · rw [takeRelayDown, KioskLanes.laneOf_none bad]; rfl
    · rw [takeRelayDown, KioskLanes.dropOf_none bad]
      cases laneOf lane <;> rfl
  · rw [takeRelayDown, KioskLanes.laneOf_some hi, KioskLanes.dropOf_some hd]

end Sys2Proof.BranchLink

namespace Sys2Proof.BranchLink

open Sys2Proof Sys2Proof.Machine Sys2Proof.Safety

/-! ## What no command but a reset changes -/

/-- The unit number stays, the receiver is not sent to HUNT, and the county day does not fall. -/
structure Guarded (s t : State) : Prop where
  unit : t.bli.unitNumber = s.bli.unitNumber
  phase : s.bli.phase = .frame → t.bli.phase = .frame
  day : s.um.day.toNat ≤ t.um.day.toNat

theorem Guarded.trans {s t u : State} (h : Guarded s t) (g : Guarded t u) : Guarded s u :=
  ⟨g.unit.trans h.unit, fun p => g.phase (h.phase p), Nat.le_trans h.day g.day⟩

theorem Guarded.of_same {s t : State} (unit : t.bli.unitNumber = s.bli.unitNumber)
    (phase : t.bli.phase = s.bli.phase) (day : t.um.day = s.um.day) : Guarded s t :=
  ⟨unit, fun p => phase.trans p, Nat.le_of_eq (congrArg BitVec.toNat day.symm)⟩

/-- An update of other fields before an operation. -/
theorem Guarded.after {s t u : State} (g : Guarded t u) (unit : t.bli.unitNumber = s.bli.unitNumber)
    (phase : t.bli.phase = s.bli.phase) (day : t.um.day = s.um.day) : Guarded s u := (of_same unit phase day).trans g

theorem guarded_countLink (c : LinkCounter) (s : State) : Guarded s (s.countLink c) := .of_same rfl rfl rfl

theorem Guarded.refl (s : State) : Guarded s s := .of_same rfl rfl rfl

theorem Guarded.of_steady {s t : State} (h : t.steady = s.steady) : Guarded s t :=
  .of_same (congrArg Steady.unitNumber h) (congrArg Steady.phase h) (congrArg Steady.day h)

theorem Guarded.of_outside {s t : State} (h : t.outside = s.outside) : Guarded s t := .of_steady (steady_of_outside h)

theorem guarded_answer (q c : Octet) (r : ResultCode) (fs : List Octet) {s t : State} (h : Guarded s t) :
    Guarded s (answer q c r fs t) := h.trans (.of_steady (steady_answer q c r fs t))

theorem guarded_live {f : State → State} {s : State} (h : Guarded s (f s)) : Guarded s (live f s) := by
  unfold live; split
  · exact h
  · exact .refl s

/-! ## Lanes -/

theorem guarded_laneAbort (i : LaneId) (f : Lane → Lane) (s : State) : Guarded s (laneAbort i f s) := by
  have aborted : Guarded (s.mapLane i Lane.abort) (abortLane i (s.mapLane i Lane.abort)) :=
    .of_steady (steady_abortLane _ _)
  exact (show Guarded s _ from aborted.after rfl rfl rfl).trans (.of_same rfl rfl rfl)

theorem guarded_takeBreak (i : LaneId) (s : State) : Guarded s (takeBreak i s) := by
  unfold takeBreak; split
  · exact (guarded_laneAbort i _ _).after rfl rfl rfl
  · exact .refl s

theorem guarded_assembleCharacter (i : LaneId) (d : DropId) (c : LaneChar) (s : State) :
    Guarded s (assembleCharacter i d c s) := by
  unfold assembleCharacter; dsimp only; split_ifs
  · exact .of_same rfl rfl rfl
  · exact .of_same rfl rfl rfl
  · exact .of_same rfl rfl rfl
  · unfold completeFrame; dsimp only; split
    · exact (Guarded.of_steady (steady_dispatch _ _ _ _)).after rfl rfl rfl
    · exact .of_same rfl rfl rfl
  · exact .of_same rfl rfl rfl

theorem guarded_takeCharacter (i : LaneId) (x : Samples) (s : State) : Guarded s (takeCharacter i x s) := by
  unfold takeCharacter; split
  · split
    · exact .refl s
    dsimp only; split
    · exact .of_same rfl rfl rfl
    · exact .of_same rfl rfl rfl
    · exact .of_same rfl rfl rfl
    split
    · exact .of_same rfl rfl rfl
    · exact (guarded_assembleCharacter _ _ _ _).after rfl rfl rfl
    · exact .of_same rfl rfl rfl
  · exact .refl s

theorem guarded_takeSetLane (i : LaneId) (serve : Bool) (r : Fin 5) (s : State) :
    Guarded s (takeSetLane i serve r s) := by
  unfold takeSetLane; dsimp only; repeat' split
  · exact .of_same rfl rfl rfl
  · exact .of_same rfl rfl rfl
  · exact guarded_laneAbort _ _ s
  · exact .refl s
  · exact guarded_laneAbort _ _ s

theorem guarded_takeSetDrop (i : LaneId) (d : DropId) (e : Enrolment) (s : State) :
    Guarded s (takeSetDrop i d e s) := by
  unfold takeSetDrop; dsimp only; split_ifs
  · exact .refl s
  · exact (Guarded.of_steady (steady_abortDrop _ _ _)).after rfl rfl rfl
  · exact .of_same rfl rfl rfl
  · exact .of_same rfl rfl rfl

/-! ## Unit Management and the rule store -/

theorem guarded_setLane (q a b c : Octet) (s : State) : Guarded s (manageSetLane q a b c s) := by
  unfold manageSetLane; repeat' split
  · exact guarded_answer _ _ _ _ (guarded_takeSetLane _ _ _ s)
  · exact guarded_answer _ _ _ _ (guarded_takeSetLane _ _ _ s)
  · exact guarded_answer _ _ _ _ (.refl s)
  · exact guarded_answer _ _ _ _ (.refl s)

theorem guarded_setDrop (q a b c : Octet) (s : State) : Guarded s (manageSetDrop q a b c s) := by
  unfold manageSetDrop; split
  · exact guarded_answer _ _ _ _ (guarded_takeSetDrop _ _ _ s)
  · exact guarded_answer _ _ _ _ (.refl s)

/-- A day set is never an earlier one (R187). -/
theorem guarded_setDay (q : Octet) (d : Day) (s : State) : Guarded s (manageSetDay q d s) := by
  unfold manageSetDay; split_ifs with zero back
  · exact guarded_answer _ _ _ _ (.refl s)
  · exact guarded_answer _ _ _ _ (.refl s)
  · exact guarded_answer _ _ _ _ ⟨rfl, id, Nat.le_of_not_lt back⟩

theorem guarded_setOverride (q v : Octet) (s : State) : Guarded s (manageSetOverride q v s) := by
  unfold manageSetOverride; split
  all_goals exact guarded_answer _ _ _ _ (.of_same rfl rfl rfl)

theorem guarded_quiesce (q : Octet) (s : State) : Guarded s (manageQuiesce q s) := by
  unfold manageQuiesce; repeat' split
  · exact guarded_answer _ _ _ _ (.of_same rfl rfl rfl)
  · exact .of_same rfl rfl rfl
  · exact guarded_answer _ _ _ _ (.refl s)
  · exact guarded_answer _ _ _ _ (.refl s)

theorem guarded_resumeService (q : Octet) (s : State) : Guarded s (manageResumeService q s) := by
  unfold manageResumeService; dsimp only; split
  · exact guarded_answer _ _ _ _ (guarded_answer _ _ _ _ (.of_same rfl rfl rfl))
  · exact guarded_answer _ _ _ _ (.of_same rfl rfl rfl)

theorem guarded_flushCache (q : Octet) (s : State) : Guarded s (manageFlushCache q s) := by
  unfold manageFlushCache; split
  all_goals exact guarded_answer _ _ _ _ (.of_same rfl rfl rfl)

theorem guarded_readCounters (q c : Octet) (s : State) : Guarded s (manageReadCounters q c s) := by
  unfold manageReadCounters; split
  all_goals exact guarded_answer _ _ _ _ (.of_same rfl rfl rfl)

theorem guarded_tableClear (q b : Octet) (s : State) : Guarded s (takeTableClear q b s) := by
  unfold takeTableClear; repeat' split
  · exact guarded_answer _ _ _ _ (.refl s)
  · exact guarded_answer _ _ _ _ (.refl s)
  · exact .of_same rfl rfl rfl

theorem guarded_tableWrite (q b e : Octet) (vs : List Octet) (s : State) : Guarded s (takeTableWrite q b e vs s) := by
  unfold takeTableWrite; split
  · exact guarded_answer _ _ _ _ (.refl s)
  dsimp only; split_ifs
  case' neg => exact .of_same rfl rfl rfl
  all_goals exact guarded_answer _ _ _ _ (.of_same rfl rfl rfl)

theorem guarded_tableClose (q b : Octet) (s : State) : Guarded s (takeTableClose q b s) := by
  unfold takeTableClose; split
  · exact guarded_answer _ _ _ _ (.refl s)
  dsimp only; split_ifs
  case' neg => exact .of_same rfl rfl rfl
  all_goals exact guarded_answer _ _ _ _ (.of_same rfl rfl rfl)

theorem guarded_tableAbort (q : Octet) (s : State) : Guarded s (takeTableAbort q s) := by
  unfold takeTableAbort; split
  · exact guarded_answer _ _ _ _ (.refl s)
  · exact guarded_answer _ _ _ _ (guarded_answer _ _ _ _ (.of_same rfl rfl rfl))

theorem guarded_tableRead (q b e : Octet) (s : State) : Guarded s (takeTableRead q b e s) := by
  unfold takeTableRead; repeat' split
  all_goals exact guarded_answer _ _ _ _ (.refl s)

theorem guarded_tableStatusClear (q : Octet) (s : State) : Guarded s (takeTableStatusClear q s) := by
  unfold takeTableStatusClear; split
  all_goals exact guarded_answer _ _ _ _ (.of_same rfl rfl rfl)

theorem guarded_clearCompletes (s : State) : Guarded s (clearCompletes s) := by
  unfold clearCompletes; split
  · exact guarded_answer _ _ _ _ (.of_same rfl rfl rfl)
  · exact .refl s

theorem guarded_writeCompletes (s : State) : Guarded s (writeCompletes s) := by
  unfold writeCompletes; split
  · exact guarded_answer _ _ _ _ (.of_same rfl rfl rfl)
  · exact .refl s

theorem guarded_closeCompletes (s : State) : Guarded s (closeCompletes s) := by
  unfold closeCompletes; split
  · refine Guarded.trans ?_ (.of_outside (outside_blockAvailable _ _))
    exact guarded_answer _ _ _ _ (.of_same rfl rfl rfl)
  · exact .refl s

/-! ## Good frames (R31) -/

theorem guarded_takeMgmt {f : State → State} {s : State} (h : Guarded s (f s)) : Guarded s (takeMgmt f s) := by
  unfold takeMgmt; split
  · exact .refl s
  · exact h

/-- The block of a good frame guards the unit number, the phase and the day, unless the frame is a RESET_UNIT. -/
theorem guarded_steer {c : Instr} (noReset : ∀ seq straps, c ≠ .resetUnit seq straps) (s : State) :
    Guarded s (steer c s) := by
  cases c
  case relayDown => exact .of_steady (steady_takeRelayDown ..)
  case segment => exact .of_steady (steady_takeSegment ..)
  case absent => exact .of_steady (steady_takeAbsent ..)
  case defer => exact .of_steady (steady_takeDefer ..)
  case invalidate => exact .of_steady (steady_takeInvalidate ..)
  case result => exact .of_steady (steady_takeResult ..)
  case setLane => exact guarded_takeMgmt (guarded_setLane ..)
  case setDrop => exact guarded_takeMgmt (guarded_setDrop ..)
  case setDay => exact guarded_takeMgmt (guarded_setDay ..)
  case setOverride => exact guarded_takeMgmt (guarded_setOverride ..)
  case quiesce => exact guarded_takeMgmt (guarded_quiesce ..)
  case resumeService => exact guarded_takeMgmt (guarded_resumeService ..)
  case flushCache => exact guarded_takeMgmt (guarded_flushCache ..)
  case readStatus => exact guarded_takeMgmt (guarded_answer _ _ _ _ (.refl s))
  case readCounters => exact guarded_takeMgmt (guarded_readCounters ..)
  case resetUnit seq straps => exact absurd rfl (noReset seq straps)
  case unknownCommand => exact guarded_takeMgmt (guarded_answer _ _ _ _ (.refl s))
  case tableClear => exact guarded_takeMgmt (guarded_tableClear ..)
  case tableWrite => exact guarded_takeMgmt (guarded_tableWrite ..)
  case tableClose => exact guarded_takeMgmt (guarded_tableClose ..)
  case tableAbort => exact guarded_takeMgmt (guarded_tableAbort ..)
  case tableRead => exact guarded_takeMgmt (guarded_tableRead ..)
  case tableStatusClear => exact guarded_takeMgmt (guarded_tableStatusClear ..)
  all_goals exact .refl s

/-- No good frame sends the receiver to HUNT; a RESET_UNIT leaves it in FRAME (R193). -/
theorem steer_phase (c : Instr) {s : State} (frame : s.bli.phase = .frame) : (steer c s).bli.phase = .frame := by
  by_cases h : ∃ seq straps, c = .resetUnit seq straps
  · obtain ⟨seq, straps, rfl⟩ := h
    simp only [steer, takeMgmt]; split
    · exact frame
    · rfl
  · exact (guarded_steer (fun seq straps e => h ⟨seq, straps, e⟩) s).phase frame

/-! ## The frame a command arrives as (R26, R31) -/

/-- In HUNT a delimiter in its place fixes the boundary (R26). -/
theorem openFrame_hunt {s : State} (hunt : s.bli.phase = .hunt) (al : aligned s.bli = true) :
    openFrame s = { s with bli := s.bli.foundBoundary } := by
  obtain ⟨short, noDelimiter⟩ : s.bli.bits.length ≤ 7 ∧ ∀ j, j < 8 → 8 ≤ s.bli.bits.length + j →
      octetOfBits ((s.bli.bits ++ (octetBits 0xA5).take j).drop (s.bli.bits.length + j - 8)) ≠ 0xA5 := by
    simpa only [aligned, hunt, Bool.and_eq_true, decide_eq_true_eq, List.all_eq_true, List.mem_range] using al
  have seven : ((octetBits 0xA5).take 7).length = 7 := rfl
  have before : ((octetBits 0xA5).take 7).foldl receiveBit s = s.withBits ((octetBits 0xA5).take 7) := by
    have run := receiveBits_hunt ((octetBits 0xA5).take 7) s.bli.bits s hunt short fun j hj enough => by
      rw [seven] at hj
      rw [List.take_take, Nat.min_eq_left hj]
      exact noDelimiter j (by omega) enough
    rwa [seven, Nat.add_sub_cancel, List.drop_left] at run
  have bits : (octetBits 0xA5).take 7 ++ [true] = octetBits 0xA5 := rfl
  have found : octetOfBits ((octetBits 0xA5).take 7 ++ [true]) = 0xA5 := by rw [bits, octetOfBits_octetBits]
  have last := receiveBit_hunt (s := s.withBits ((octetBits 0xA5).take 7)) seven hunt true
  rw [openFrame, receiveLine, ← bits, List.foldl_append, before, List.foldl_cons, List.foldl_nil, last]
  exact if_pos found

/-- Between frames, whatever the escape mark, the opening delimiter leaves the receiver on the boundary (R26, R28). -/
theorem openFrame_between {s : State} (empty : s.bli.assembly = []) (al : aligned s.bli = true) :
    Guarded s (openFrame s) ∧ (openFrame s).bli.onBoundary = true := by
  cases phase : s.bli.phase with
  | hunt =>
    rw [openFrame_hunt phase al]
    exact ⟨⟨rfl, fun _ => rfl, Nat.le_refl _⟩, rfl⟩
  | frame =>
    have bits : s.bli.bits = [] := by simpa [aligned, phase] using al
    have opened := receiveLine_frame s 0xA5 phase bits
    cases escape : s.bli.escape with
    | false =>
      rw [receiveOctet_idle phase escape empty, if_neg (by simp [phase])] at opened
      rw [openFrame, opened]
      exact ⟨.refl s, by simp [Bli.onBoundary, phase, bits]⟩
    | true =>
      rw [receiveOctet_cut phase (.inl escape), discardFrame_frame phase, if_neg (by simp [phase])] at opened
      rw [openFrame, opened]
      exact ⟨.of_same rfl rfl rfl, by simp [Bli.onBoundary, phase, bits]⟩

/-- Every command's frame decodes to it. -/
theorem frameCodec (c : Instr) : Laws.FrameCodec.Statement c := by
  cases c
  case relayDown => exact Laws.FrameCodec.relayDown _ _ _
  case segment => exact Laws.FrameCodec.segment _ _ _ _ _ _ _
  case absent => exact Laws.FrameCodec.absent _
  case defer => exact Laws.FrameCodec.defer _ _
  case invalidate => exact Laws.FrameCodec.invalidate _ _ _
  case result => exact Laws.FrameCodec.result _ _ _ _
  case setLane => exact Laws.FrameCodec.setLane _ _ _ _
  case setDrop => exact Laws.FrameCodec.setDrop _ _ _ _
  case setDay => exact Laws.FrameCodec.setDay _ _
  case setOverride => exact Laws.FrameCodec.setOverride _ _
  case quiesce => exact Laws.FrameCodec.quiesce _
  case resumeService => exact Laws.FrameCodec.resumeService _
  case flushCache => exact Laws.FrameCodec.flushCache _
  case readStatus => exact Laws.FrameCodec.readStatus _
  case readCounters => exact Laws.FrameCodec.readCounters _ _
  case resetUnit => exact Laws.FrameCodec.resetUnit _ _
  case unknownCommand => exact Laws.FrameCodec.unknownCommand _ _ _
  case tableClear => exact Laws.FrameCodec.tableClear _ _
  case tableWrite => exact Laws.FrameCodec.tableWrite _ _ _ _
  case tableClose => exact Laws.FrameCodec.tableClose _ _
  case tableAbort => exact Laws.FrameCodec.tableAbort _
  case tableRead => exact Laws.FrameCodec.tableRead _ _ _
  case tableStatusClear => exact Laws.FrameCodec.tableStatusClear _
  all_goals exact Laws.FrameCodec.of_none rfl

/-- What a command's frame is taken as: operands of an UNKNOWN_COMMAND that spell a command are that command
(log entry 33). -/
def spelled (unit : BitVec 6) : Instr → Instr
  | .unknownCommand seq code args => decodeMgmt unit seq code args
  | c => c

theorem spelled_wellFormed {c : Instr} (wf : c.wellFormed = true) (unit : BitVec 6) : spelled unit c = c := by
  cases c
  case unknownCommand seq code args =>
    have unknown : wfUnknown seq code args = true := ((Bool.and_eq_true _ _).mp wf).2
    exact Laws.FrameCodec.decodeMgmt_unknown unit (of_decide_eq_true unknown)
  all_goals rfl

/-- A command that is a frame arrives as that frame. -/
theorem exec_arrives {c : Instr} {kind : Octet} {tag : Tag} {payload : List Octet}
    (e : encodeFrame c = some (kind, tag, payload)) (s : State) :
    exec c s = .next (live (arrive c (steer (spelled s.bli.unitNumber c))) s) := by
  cases c <;> first | (cases e; done) | rfl

/-! ## Every command but the resets -/

theorem arrive_boundary {c : Instr} {kind : Octet} {tag : Tag} {payload : List Octet} (f : State → State) {s : State}
    (e : encodeFrame c = some (kind, tag, payload)) (fits : payload.length ≤ 480)
    (accepted : payloadAccepted kind payload.length = some true) (on : (openFrame s).bli.onBoundary = true) :
    arrive c f s = f ((openFrame s).countLink .framesTaken) := by
  simp [arrive, e, on, fits, accepted]

theorem guarded_exec {c : Instr} {s t : State} (wf : c.wellFormed = true) (noError : ∀ os, c ≠ .linkFrameError os)
    (noLine : ∀ straps, c ≠ .resetLine straps) (noUnit : ∀ seq straps, c ≠ .resetUnit seq straps)
    (empty : s.bli.assembly = []) (al : aligned s.bli = true) (e : exec c s = .next t) : Guarded s t := by
  cases frame : encodeFrame c with
  | some x =>
    obtain ⟨kind, tag, payload⟩ := x
    obtain ⟨opened, on⟩ := openFrame_between empty al
    obtain ⟨fits, accepted, -⟩ :=
      frameCodec c kind tag payload 0 wf frame fun seq straps h => absurd h (noUnit seq straps)
    rw [exec_arrives frame, spelled_wellFormed wf] at e
    obtain rfl := Host.Outcome.next.inj e
    refine guarded_live ?_
    rw [arrive_boundary _ frame fits accepted on]
    exact (opened.trans (guarded_countLink .framesTaken _)).trans (guarded_steer noUnit _)
  | none =>
    cases c <;> first | (cases frame; done) | obtain rfl := Host.Outcome.next.inj e
    case resetLine straps => exact absurd rfl (noLine straps)
    case linkFrameError os => exact absurd rfl (noError os)
    case laneCharacter => exact guarded_live (guarded_takeCharacter ..)
    case breakReceived => exact guarded_live (guarded_takeBreak ..)
    case deferDelayEnd => exact guarded_live (.of_steady (steady_endDelay ..))
    case fetchTimeout => exact guarded_live (.of_steady (steady_fetchTimerOut ..))
    case commitTimeout => exact guarded_live (.of_steady (steady_commitTimerOut ..))
    case transactionDeadline => exact guarded_live (.of_steady (steady_deadlineFalls ..))
    case transmitFrameEnd => exact guarded_live (.of_steady (steady_endFrame _))
    case renew => exact guarded_live (.of_steady (steady_takeDecision ..))
    case pay => exact guarded_live (.of_steady (steady_takeDecision ..))
    case account => exact guarded_live (.of_steady (steady_takeDecision ..))
    case hold => exact guarded_live (.of_steady (steady_takeDecision ..))
    case cancel => exact guarded_live (.of_steady (steady_takeDecision ..))
    case suspend => exact guarded_live (.of_steady (steady_takeDecision ..))
    case resume => exact guarded_live (.of_steady (steady_takeDecision ..))
    case clearComplete => exact guarded_live (guarded_clearCompletes s)
    case writeComplete => exact guarded_live (guarded_writeCompletes s)
    case closeComplete => exact guarded_live (guarded_closeCompletes s)
    case octetBoundaryFound =>
      refine guarded_live ?_
      unfold findBoundary; split
      · exact ⟨rfl, fun _ => rfl, Nat.le_refl _⟩
      · exact .refl s
    all_goals exact guarded_live (.of_same rfl rfl rfl)

/-! ## The unit number (R30) -/

theorem unitOfStraps_ne_zero (straps : BitVec 6) : unitOfStraps straps ≠ 0 := by
  unfold unitOfStraps; split
  · decide
  · next h => exact h

/-- No offer and no end of a transmission touches the unit number, and a reset sets it from the straps. -/
theorem unitNumber_kept : WireKept fun w => w.link.unitNumber ≠ 0 where
  offer w v h g := by
    cases g with
    | relay => exact (Bli.start_unitNumber _).symm ▸ h
    | own => exact (Bli.start_unitNumber _).symm ▸ h
    | owe => exact h
    | drop => exact h
  octet w h := by
    cases taken : w.link.start.transmitting with
    | none => rw [octetTime_idle taken, Bli.start_unitNumber]; exact h
    | some f => rw [octetTime_busy taken]; simpa using h
  reset _ straps _ _ _ := unitOfStraps_ne_zero straps
  sent w f h _ := by simpa [ended] using h

theorem guarded_octetTime (s : State) : Guarded s (octetTime s) := by
  unfold octetTime
  cases taken : s.bli.start.transmitting with
  | none => rw [octetTime_idle taken]; exact .of_same (by simp) (by simp) rfl
  | some f => rw [octetTime_busy taken]; exact .of_same (by simp) (by simp) rfl

/-- Settles O60: the unit number's range is kept by every operation; between frames a well-formed command's frame is taken
whole by its block, and no block but a reset's touches the unit number or lets the day fall. -/
theorem unitNumberAndDayKept : Obligations.UnitNumberAndDayKept := by
  intro s t e
  refine ⟨fun h => unitNumber_kept.keeps.step s t h e, fun front empty al => ?_⟩
  suffices kept : Guarded s t from ⟨kept.unit, kept.day⟩
  unfold step at e; split at e
  · injection e with e
    subst e
    exact guarded_live (guarded_octetTime s)
  · next c rest pending =>
    obtain ⟨wf, noError, noLine, noUnit⟩ := front c (by simp [pending])
    have kept := guarded_exec (s := { s with pending := rest }) wf noError noLine noUnit empty al e
    exact ⟨kept.unit, kept.phase, kept.day⟩

end Sys2Proof.BranchLink

namespace Sys2Proof.BranchLink

open Sys2Proof Sys2Proof.Machine Sys2Proof.Safety

/-! ## The check register (R29) -/

/-- A shift of the register with some bits added to it takes their first bit and leaves the others added. -/
theorem crcShift_xor (r x : BitVec 16) : crcShift (r ^^^ x) = checkBit r x.msb ^^^ (x <<< 1) := by
  unfold crcShift checkBit
  rw [BitVec.msb_xor, BitVec.shiftLeft_xor_distrib]
  by_cases h : r.msb = x.msb
  · simp [h]
  · simp only [bne_iff_ne.mpr h, if_true, if_neg h]
    ac_rfl

theorem crcShift_repeat (r x : BitVec 16) (k : Nat) : Nat.repeat crcShift k (r ^^^ x) =
    (List.range k).foldl (fun r j => checkBit r (x.getMsbD j)) r ^^^ (x <<< k) := by
  induction k with
  | zero => simp [Nat.repeat]
  | succ k ih =>
    have first : (x <<< k).msb = x.getMsbD k := by simp [BitVec.msb]
    rw [Nat.repeat, ih, crcShift_xor, first, List.range_succ, List.foldl_append, BitVec.shiftLeft_add]
    rfl

/-- The register takes an octet most significant bit first (R29). -/
theorem crcOctet_eq (r : BitVec 16) (o : Octet) : crcOctet r o = (octetBits o).foldl checkBit r := by
  have gone : (o.setWidth 16 <<< 8) <<< 8 = 0#16 := by
    rw [← BitVec.shiftLeft_add]; exact BitVec.shiftLeft_eq_zero (by omega)
  have bits : ∀ j ∈ List.range 8, (o.setWidth 16 <<< 8).getMsbD j = o.getMsbD j := by
    intro j hj
    simp [BitVec.getMsbD_setWidth]
  rw [crcOctet, crcShift_repeat, gone, BitVec.xor_zero, octetBits, List.foldl_map]
  exact List.foldl_ext _ _ _ fun r j hj => by rw [bits j hj]

theorem crc_eq (os : List Octet) : crc os = (os.flatMap octetBits).foldl checkBit 0xFFFF := by
  unfold crc
  generalize (0xFFFF : BitVec 16) = r
  induction os generalizing r with
  | nil => rfl
  | cons o os ih => rw [List.foldl_cons, ih, crcOctet_eq, List.flatMap_cons, List.foldl_append]

theorem escaped_eq (os : List Octet) : escaped os =
    os.flatMap fun o => if o = 0xA5 then [0xA6, 0xE5] else if o = 0xA6 then [0xA6, 0xE6] else [o] := by
  induction os with
  | nil => rfl
  | cons o os ih =>
    rw [escaped, List.flatMap_cons, ← ih]
    split_ifs <;> rfl

theorem crcShift_low (o : Octet) : Nat.repeat crcShift 8 (o.setWidth 16) = o.setWidth 16 <<< 8 := by
  have empty : ∀ j ∈ List.range 8, (o.setWidth 16).getMsbD j = false := by
    intro j hj
    have : j < 8 := List.mem_range.mp hj
    simp [BitVec.getMsbD_setWidth]; omega
  have run := crcShift_repeat 0#16 (o.setWidth 16) 8
  rw [BitVec.zero_xor, List.foldl_ext _ (fun r _ => checkBit r false) 0#16 fun r j hj => by rw [empty j hj]] at run
  rw [run]
  exact BitVec.zero_xor

/-- The register with its own value as the next two octets ends at 0 (R29). -/
theorem crcOctet_own (r : BitVec 16) : crcOctet (crcOctet r (octet (r.toNat / 256))) (octet r.toNat) = 0 := by
  have low : r ^^^ ((octet (r.toNat / 256)).setWidth 16 <<< 8) = (octet r.toNat).setWidth 16 := by
    have high : octet (r.toNat / 256) = r.extractLsb' 8 8 := by
      apply BitVec.eq_of_toNat_eq; simp [Nat.shiftRight_eq_div_pow]
    have low : octet r.toNat = r.setWidth 8 := by apply BitVec.eq_of_toNat_eq; simp
    rw [high, low]
    ext i hi
    by_cases h : i < 8
    · simp [h, BitVec.getLsbD_eq_getElem hi]
    · simp [h, BitVec.getLsbD_eq_getElem hi, show 8 + (i - 8) = i by omega, show i - 8 < 8 by omega]
  have again : crcOctet r (octet (r.toNat / 256)) = (octet r.toNat).setWidth 16 <<< 8 := by
    rw [crcOctet, low, crcShift_low]
  rw [again, crcOctet, BitVec.xor_self]
  decide

/-! ## The content of a frame (R195) -/

/-- A frame's content without its check sequence. -/
def bodyOf (kind unit : Octet) (tag : Tag) (payload : List Octet) : List Octet :=
  kind :: unit :: beOctets 2 tag.toNat ++ beOctets 2 payload.length ++ payload

section Content
variable (kind unit : Octet) (tag : Tag) (payload : List Octet)

theorem contentOf_eq : contentOf kind unit tag payload =
    bodyOf kind unit tag payload ++ beOctets 2 (crc (bodyOf kind unit tag payload)).toNat := rfl

theorem bodyOf_length : (bodyOf kind unit tag payload).length = payload.length + 6 := by
  simp [bodyOf]; omega

theorem contentOf_length : (contentOf kind unit tag payload).length = payload.length + 8 := by
  rw [contentOf_eq, List.length_append, bodyOf_length, beOctets_length]

theorem contentOf_count (fits : payload.length ≤ 480) : natAt (contentOf kind unit tag payload) 4 2 = payload.length := by
  have shape : contentOf kind unit tag payload = (kind :: unit :: beOctets 2 tag.toNat) ++ beOctets 2 payload.length ++
      (payload ++ beOctets 2 (crc (bodyOf kind unit tag payload)).toNat) := by
    rw [contentOf_eq, bodyOf]; simp only [List.append_assoc]
  rw [shape, natAt_beOctets _ _ 4 2 _ (by simp)]
  omega

theorem contentOf_take : (contentOf kind unit tag payload).take (payload.length + 6) = bodyOf kind unit tag payload := by
  rw [contentOf_eq, ← bodyOf_length kind unit tag payload, List.take_left]

theorem contentOf_sequence : BitVec.ofNat 16 (natAt (contentOf kind unit tag payload) (payload.length + 6) 2) =
    crc (bodyOf kind unit tag payload) := by
  have read := natAt_beOctets (bodyOf kind unit tag payload) [] (payload.length + 6) 2
    (crc (bodyOf kind unit tag payload)).toNat (bodyOf_length kind unit tag payload).symm
  rw [List.append_nil] at read
  rw [contentOf_eq, read]
  apply BitVec.eq_of_toNat_eq
  have := (crc (bodyOf kind unit tag payload)).isLt
  simp only [BitVec.toNat_ofNat]; omega

theorem contentOf_tag : BitVec.ofNat 16 (natAt (contentOf kind unit tag payload) 2 2) = tag := by
  have shape : contentOf kind unit tag payload = [kind, unit] ++ beOctets 2 tag.toNat ++ (beOctets 2 payload.length ++
      payload ++ beOctets 2 (crc (bodyOf kind unit tag payload)).toNat) := by
    rw [contentOf_eq, bodyOf]; simp only [List.cons_append, List.append_assoc, List.nil_append]
  rw [shape, natAt_beOctets _ _ 2 2 _ rfl]
  apply BitVec.eq_of_toNat_eq
  have := tag.isLt
  simp only [BitVec.toNat_ofNat]; omega

theorem contentOf_payload : ((contentOf kind unit tag payload).drop 6).take payload.length = payload := by
  have shape : contentOf kind unit tag payload = (kind :: unit :: beOctets 2 tag.toNat ++ beOctets 2 payload.length) ++
      (payload ++ beOctets 2 (crc (bodyOf kind unit tag payload)).toNat) := by
    rw [contentOf_eq, bodyOf]; simp only [List.append_assoc]
  rw [shape, List.drop_left' (by simp), List.take_left]

/-- The check sequence of a content with its own check sequence is 0 (R29). -/
theorem crc_contentOf : crc (contentOf kind unit tag payload) = 0 := by
  have own := crcOctet_own (crc (bodyOf kind unit tag payload))
  rw [contentOf_eq, crc, List.foldl_append, ← crc]
  simpa [beOctets] using own

end Content

/-! ## The tests of R29 -/

/-- Tests 1 and 2: the length and the check sequence. -/
theorem checkContent_malformed (unit : BitVec 6) {content : List Octet} (h : content.length ≠ natAt content 4 2 + 8 ∨
    crc (content.take (content.length - 2)) ≠ BitVec.ofNat 16 (natAt content (content.length - 2) 2)) :
    checkContent unit content = .error .crcLength := by
  unfold checkContent; dsimp only
  by_cases length : 480 < natAt content 4 2 ∨ content.length ≠ natAt content 4 2 + 8
  · rw [if_pos length]
  · have same : natAt content 4 2 + 6 = content.length - 2 := by omega
    rw [if_neg length, same, if_pos (h.resolve_left (by omega))]

section Tests
variable {unit : BitVec 6} {kind : Octet} {tag : Tag} {payload : List Octet} (fits : payload.length ≤ 480)
include fits

/-- What is left of the checks for a content with its own length and check sequence: the unit and the kind. -/
theorem checkContent_contentOf (u : Octet) : checkContent unit (contentOf kind u tag payload) =
    if u ≠ unit.setWidth 8 then .error .wrongUnit
    else (payloadAccepted kind payload.length).elim (.error .unknownKind) fun accepted =>
      if accepted then .ok (kind, tag, payload) else .error .crcLength := by
  unfold checkContent; dsimp only
  rw [contentOf_count _ _ _ _ fits, contentOf_length, contentOf_take, contentOf_sequence, contentOf_tag,
    contentOf_payload, if_neg (by omega), if_neg (fun h => h rfl)]
  rw [show (contentOf kind u tag payload).getD 0 0 = kind from rfl,
    show (contentOf kind u tag payload).getD 1 0 = u from rfl]
  rcases payloadAccepted kind payload.length with _ | _ | _ <;> rfl

end Tests

theorem payloadAccepted_none {kind : Octet} (h : kind.toNat < 0x20 ∨ 0x26 < kind.toNat) (n : Nat) :
    payloadAccepted kind n = none := by
  unfold payloadAccepted; split
  case h_8 => rfl
  all_goals omega

theorem payloadAccepted_false {kind : Octet} {n : Nat} (fits : n ≤ 480) (low : 0x20 ≤ kind.toNat)
    (high : kind.toNat ≤ 0x26)
    (h : ¬ (kind = 0x20 ∧ 2 ≤ n ∨ kind = 0x21 ∧ n = 43 ∨ kind = 0x22 ∧ n = 0 ∨ kind = 0x23 ∧ n = 1 ∨
      kind = 0x24 ∧ n = 9 ∨ kind = 0x25 ∧ n ∈ [2, 6, 10, 14] ∨ kind = 0x26 ∧ 2 ≤ n)) :
    payloadAccepted kind n = some false := by
  have kinds : kind = 0x20 ∨ kind = 0x21 ∨ kind = 0x22 ∨ kind = 0x23 ∨ kind = 0x24 ∨ kind = 0x25 ∨ kind = 0x26 := by
    bv_omega
  rcases kinds with rfl | rfl | rfl | rfl | rfl | rfl | rfl
  all_goals
    refine congrArg some (decide_eq_false fun ok => h ?_)
    simp
    omega

/-! ## A frame's octets on the receiver's boundary (R26, R28) -/

/-- The receiver in FRAME on its boundary with some octets assembled. -/
def assembling (s : State) (os : List Octet) : State :=
  { s with bli := { s.bli with phase := .frame, bits := [], assembly := os, escape := false } }

/-- The receiver behind an escape octet. -/
def escaping (s : State) (os : List Octet) : State :=
  { s with bli := { s.bli with phase := .frame, bits := [], assembly := os, escape := true } }

theorem heard_eq {s : State} (h : Listening s) : heard s = assembling s [] := by
  obtain ⟨-, empty, escape, -⟩ := h
  simp [heard, assembling, empty, escape]

/-- On the boundary eight bits are one octet, unless it sends the receiver to HUNT. -/
theorem receiveLine_octet {s t : State} {o : Octet} (frame : s.bli.phase = .frame) (bits : s.bli.bits = [])
    (h : receiveOctet s o = t) (stays : t.bli.phase = .frame) : receiveLine s o = t := by
  rw [receiveLine_frame s o frame bits, h, if_neg (by simp [stays])]

section Assembly
variable (s : State) {os : List Octet}

theorem line_escape : receiveLine (assembling s os) 0xA6 = escaping s os :=
  receiveLine_octet rfl rfl (receiveOctet_escape rfl rfl) rfl

theorem line_plain (room : os.length < 488) {o : Octet} (noDelimiter : o ≠ 0xA5) (noEscape : o ≠ 0xA6) :
    receiveLine (assembling s os) o = assembling s (os ++ [o]) := by
  refine receiveLine_octet rfl rfl ((receiveOctet_content rfl (.inr ⟨rfl, noDelimiter, noEscape, rfl⟩)).trans ?_) rfl
  rw [addOctet_room room]; rfl

theorem line_unescape (room : os.length < 488) {o v : Octet} (code : o = 0xE5 ∧ v = 0xA5 ∨ o = 0xE6 ∧ v = 0xA6) :
    receiveLine (escaping s os) o = assembling s (os ++ [v]) := by
  refine receiveLine_octet rfl rfl ((receiveOctet_content rfl (.inl ⟨rfl, code⟩)).trans ?_) rfl
  rw [addOctet_room room]; rfl

/-- The octets of a content with its escapes are assembled one by one (R28). -/
theorem line_escaped (new : List Octet) (room : os.length + new.length ≤ 488) :
    (escaped new).foldl receiveLine (assembling s os) = assembling s (os ++ new) := by
  induction new generalizing os with
  | nil => simp [escaped]
  | cons o new ih =>
    have room' : os.length < 488 := by simp only [List.length_cons] at room; omega
    have rest := ih (os := os ++ [o]) (by simp only [List.length_cons, List.length_append, List.length_nil] at room ⊢; omega)
    rw [List.append_assoc, List.singleton_append] at rest
    unfold escaped
    split_ifs with delimiter escape
    · subst delimiter
      rw [List.foldl_cons, List.foldl_cons, line_escape, line_unescape s room' (.inl ⟨rfl, rfl⟩), rest]
    · subst escape
      rw [List.foldl_cons, List.foldl_cons, line_escape, line_unescape s room' (.inr ⟨rfl, rfl⟩), rest]
    · rw [List.foldl_cons, line_plain s room' delimiter escape, rest]

theorem checkFrame_phase (content : List Octet) {t : State} (frame : t.bli.phase = .frame) :
    (checkFrame content t).bli.phase = .frame := by
  unfold checkFrame; split
  · exact frame
  · split
    · exact steer_phase _ frame
    · exact frame

theorem line_closes (long : 8 ≤ os.length) : receiveLine (assembling s os) 0xA5 = checkFrame os (assembling s []) :=
  receiveLine_octet rfl rfl (receiveOctet_closes (s := assembling s os) rfl rfl long) (checkFrame_phase os rfl)

/-- An escape fault sends the receiver to HUNT, the octet's last seven bits held for the hunt (R28). -/
theorem line_fault {o : Octet} (bad : o ≠ 0xA5 ∧ o ≠ 0xE5 ∧ o ≠ 0xE6) : receiveLine (escaping s os) o =
    { s with bli := { s.bli with
      phase := .hunt, bits := (octetBits o).drop 1, assembly := [], escape := false
      counters := s.bli.counters.advance .crcLength } } := by
  rw [receiveLine_frame _ o rfl rfl, receiveOctet_fault (s := escaping s os) rfl rfl bad]
  exact if_pos rfl

end Assembly

/-! ## LINK_FRAME_ERROR (R28, R29) -/

theorem exec_linkFrameError {s : State} (power : s.powered = true) (octets : List Octet) :
    exec (.linkFrameError octets) s = .next (octets.foldl receiveLine (openFrame s)) :=
  congrArg Host.Outcome.next (KioskLanes.live_powered power _)

/-- Between frames the octets of a content, with the delimiter behind it, come to the checks on it (R28, R29). -/
theorem exec_content {s : State} (h : Listening s) {content : List Octet} (long : 8 ≤ content.length)
    (fits : content.length ≤ 488) :
    exec (.linkFrameError (escaped content ++ [0xA5])) s = .next (checkFrame content (heard s)) := by
  rw [exec_linkFrameError h.1, openFrame_listening s h, heard_eq h, List.foldl_append,
    line_escaped s content (by simpa using fits), List.nil_append, List.foldl_cons, List.foldl_nil, line_closes s long]

theorem checkFrame_error {content : List Octet} {s : State} {counter : LinkCounter}
    (h : checkContent s.bli.unitNumber content = .error counter) : checkFrame content s = s.countLink counter := by
  simp [checkFrame, h]

theorem checkFrame_ok {content payload : List Octet} {kind : Octet} {tag : Tag} {c : Instr} {s : State}
    (h : checkContent s.bli.unitNumber content = .ok (kind, tag, payload))
    (command : decodeFrame s.bli.unitNumber kind tag payload = some c) :
    checkFrame content s = steer c (s.countLink .framesTaken) := by
  simp [checkFrame, h, command]

/-- Between frames a content with its own length and check sequence comes to the tests of its unit and kind. -/
theorem exec_contentOf {s : State} (h : Listening s) {kind unit : Octet} {tag : Tag} {payload : List Octet}
    (fits : payload.length ≤ 480) {counter : LinkCounter}
    (fails : checkContent s.bli.unitNumber (contentOf kind unit tag payload) = .error counter) :
    exec (.linkFrameError (escaped (contentOf kind unit tag payload) ++ [0xA5])) s =
      .next ((heard s).countLink counter) := by
  have length := contentOf_length kind unit tag payload
  rw [exec_content h (by omega) (by omega), checkFrame_error (s := heard s) fails]

theorem openFrame_bits (s : State) : openFrame s = (octetBits 0xA5).foldl receiveBit s := rfl

/-- The octets of a LINK_FRAME_ERROR are taken bit by bit, the delimiter's before them (R26). -/
theorem exec_linkFrameError_bits {s : State} (power : s.powered = true) (octets : List Octet) :
    exec (.linkFrameError octets) s =
      .next ((0xA5 :: octets).foldl (fun t o => (octetBits o).foldl receiveBit t) s) := by
  rw [exec_linkFrameError power, List.foldl_cons, openFrame_bits]
  rfl

/-- Settles O20: the first of the checks that a content fails, the escape fault, and the boundary found. -/
theorem badFramesAreCounted : Obligations.BadFramesAreCounted := by
  refine ⟨fun s kind unit tag payload h fits => ?_, fun s content h long fits bad => ?_,
    fun s content o h fits delimiter e5 e6 => ?_, fun s octets power => exec_linkFrameError_bits power octets,
    fun s h => (openFrame_bits s).symm.trans (openFrame_listening s h), fun s power => ⟨fun hunt => ?_, fun frame => ?_⟩⟩
  · have check := checkContent_contentOf (unit := s.bli.unitNumber) (kind := kind) (tag := tag) fits unit
    refine ⟨fun wrong => ?_, fun right unknown => ?_, fun right low high bad => ?_⟩
    · rw [if_pos wrong] at check
      exact exec_contentOf h fits check
    · rw [if_neg (not_not.mpr right), payloadAccepted_none unknown] at check
      exact exec_contentOf h fits check
    · rw [if_neg (not_not.mpr right), payloadAccepted_false fits low high bad] at check
      exact exec_contentOf h fits check
  · rw [exec_content h long fits, checkFrame_error (s := heard s) (checkContent_malformed _ bad)]
    rfl
  · rw [exec_linkFrameError h.1, openFrame_listening s h, heard_eq h, List.foldl_append,
      line_escaped s content (by simpa using fits.le), List.nil_append, List.foldl_cons, List.foldl_cons,
      List.foldl_nil, line_escape, line_fault s ⟨delimiter, e5, e6⟩]
    obtain ⟨-, empty, escape, -⟩ := h
    simp [miscounted, heard, State.countLink, Bli.count, empty, escape]
  · refine congrArg Host.Outcome.next ((KioskLanes.live_powered power _).trans ?_)
    simp only [findBoundary, hunt]; rfl
  · refine congrArg Host.Outcome.next ((KioskLanes.live_powered power _).trans ?_)
    simp only [findBoundary, frame]

/-! ## Good frames, octet by octet and as commands -/

/-- Between frames a well-formed command's frame is taken by its block. -/
theorem exec_command {c : Instr} {kind : Octet} {tag : Tag} {payload : List Octet} {s : State} (h : Listening s)
    (wf : c.wellFormed = true) (e : encodeFrame c = some (kind, tag, payload)) (fits : payload.length ≤ 480)
    (accepted : payloadAccepted kind payload.length = some true) : exec c s = .next (steer c (counted s)) := by
  rw [exec_arrives e, spelled_wellFormed wf, KioskLanes.live_powered h.1, arrive_listening c _ s h e fits accepted]

theorem openFrame_eq (s : State) : openFrame s = receiveLine s 0xA5 := rfl

/-- Where the delimiter leaves the receiver off the frame's boundary, a command's frame is its octets (R26). -/
theorem exec_offBoundary {c : Instr} {kind : Octet} {tag : Tag} {payload : List Octet} {s : State}
    (power : s.powered = true) (e : encodeFrame c = some (kind, tag, payload))
    (off : (openFrame s).bli.phase = .hunt ∨ (openFrame s).bli.bits ≠ []) :
    exec c s = exec (.linkFrameError (escaped (contentOf kind (s.bli.unitNumber.setWidth 8) tag payload) ++ [0xA5])) s := by
  have octets : frameOctets s.bli.unitNumber c =
      escaped (contentOf kind (s.bli.unitNumber.setWidth 8) tag payload) ++ [0xA5] := by simp [frameOctets, e]
  have between : (openFrame s).bli.onBoundary = false := by
    rcases off with hunt | bits
    · simp [Bli.onBoundary, hunt]
    · simp [Bli.onBoundary, bits]
  rw [exec_arrives e, exec_linkFrameError power, KioskLanes.live_powered power, ← octets]
  simp [arrive, e, between]

/-- Settles O19: a content with its own length and check sequence passes the checks and decodes to its command; the
register, the escapes and the layouts clause by clause. -/
theorem framesOnTheLineAreTheirCommands : Obligations.FramesOnTheLineAreTheirCommands := by
  refine ⟨fun s c kind tag payload e => ⟨fun h wf pins => ?_, fun power off => ?_⟩, fun kind unit tag payload => ?_,
    fun os => ⟨crc_eq os, escaped_eq os⟩, fun o => ⟨rfl, fun j hj => octetBits_getD o hj⟩, ?_⟩
  · obtain ⟨fits, accepted, decodes⟩ := frameCodec c kind tag payload s.bli.unitNumber wf e pins
    have length := contentOf_length kind (s.bli.unitNumber.setWidth 8) tag payload
    have check := checkContent_contentOf (unit := s.bli.unitNumber) (kind := kind) (tag := tag) fits
      (s.bli.unitNumber.setWidth 8)
    rw [if_neg (fun h => h rfl), accepted] at check
    rw [exec_content h (by omega) (by omega), checkFrame_ok (s := heard s) check decodes,
      exec_command h wf e fits accepted]
    rfl
  · exact exec_offBoundary power e (by rwa [openFrame_eq])
  · refine ⟨?_, crc_contentOf kind unit tag payload⟩
    simp only [octetsOf_eq, BitVec.toNat_ofNat]
    have count := beOctets_mod 2 payload.length
    rw [show 2 ^ 16 = 256 ^ 2 from rfl, count]
    rfl
  · intro tag kind index flags code attempt outcome key v versions lane drop data body
    have octets : octetsOf 4 = fun v : Version => beOctets 4 v.toNat := funext fun v => octetsOf_eq 4 v
    refine ⟨rfl, ?segment, rfl, rfl, ?invalidate, ?result, fun seq a b c day values straps => ?management⟩
    case segment => simp [octetsOf_eq, encodeFrame]
    case invalidate => simp [octetsOf_eq, encodeFrame]
    case result => simp [octets, encodeFrame]
    case management => simp [octetsOf_eq, encodeFrame, mgmtPayload]

end Sys2Proof.BranchLink

namespace Sys2Proof.Transactions

open Sys2Proof Sys2Proof.Machine Sys2Proof.Safety Sys2Proof.KioskLanes

/-! ## What a release is told from, and what follows it -/

/-- A release from one state is a release from any with the same entries and contexts. -/
theorem released_congr {c : CtxId} {x : Txn} {s u : State} {r : State × List Task} (h : Released c x u r)
    (entries : ∀ k n, u.entry k n = s.entry k n) (txns : ∀ d, u.txn d = s.txn d) : Released c x s r := by
  obtain ⟨stale, unlocked, passed, owned, others, lists⟩ := h
  simp only [entries, txns] at stale unlocked passed owned others
  exact ⟨stale, unlocked, passed, owned, others, lists⟩

/-- What is done behind a release to no entry and no other context, setting off more, leaves it a release. -/
theorem released_after {c : CtxId} {x : Txn} {s : State} {r q : State × List Task} (h : Released c x s r)
    (entries : ∀ k n, q.1.entry k n = r.1.entry k n) (txns : ∀ d, d ≠ c → q.1.txn d = r.1.txn d)
    (lists : OnNoList q.1 c) (tasks : r.2 ⊆ q.2) : Released c x s q where
  stale k key n copy ws need e stale := by
    obtain ⟨empty, retry, resume⟩ := h.stale k key n copy ws need e stale
    exact ⟨(entries k n).trans empty, tasks retry, fun w hw other => tasks (resume w hw other)⟩
  unlocked k key n copy ws need e good alone := by
    obtain ⟨free, retry⟩ := h.unlocked k key n copy ws need e good alone
    exact ⟨(entries k n).trans free, tasks retry⟩
  passed k key n copy ws w rest need e good waiting := by
    obtain ⟨next, resume, told⟩ := h.passed k key n copy ws w rest need e good waiting
    have other : w ≠ c := by
      have mem : w ∈ ws.filter fun v => decide (v ≠ c) := waiting ▸ List.mem_cons_self
      simpa using (List.mem_filter.mp mem).2
    exact ⟨(entries k n).trans next, tasks resume, fun y hy => by rw [txns w other]; exact told y hy⟩
  owned k key n copy tainted need e := by
    obtain ⟨empty, retry⟩ := h.owned k key n copy tainted need e
    exact ⟨(entries k n).trans empty, tasks retry⟩
  others k n free := (entries k n).trans (h.others k n free)
  lists := lists

/-- A context that has become FREE has let go of what its needs held, whatever goes on without it. -/
theorem letGo_of_without {c : CtxId} {x : Txn} {s t : State}
    (h : Without c (releaseAll c x (offLists c s none)).1 t) : LetGo c x s t := by
  intro k key n need _
  obtain ⟨-, -, -, off⟩ := (onNoList_iff _ c).mp (onNoList_offLists c x s none)
  have unheld := (h.entries k n).unheld (fun w => off k n (lockWaiters_subset _ w)) (offLists_unheld c x s none need)
  refine ⟨fun copy ws e => ?_, fun copy tainted e => ?_, fun held => (vacated_iff t k n).mpr ?_⟩
  · rw [e] at unheld; exact unheld rfl
  · rw [e] at unheld; exact unheld rfl
  · have emptied : EmptiedBy c (s.entry k n) := by
      rcases held with ⟨copy, tainted, e⟩ | ⟨copy, ws, e, stale⟩ <;> rw [e]
      · rfl
      · exact ⟨rfl, stale⟩
    have empty := offLists_emptied c x s none need emptied
    exact (h.entries k n).vacant (by rw [empty]; trivial)

/-- Letting go of what one's needs held is told from the entries alone. -/
theorem letGo_congr {c : CtxId} {x : Txn} {s u t : State} (h : LetGo c x u t)
    (entries : ∀ k n, u.entry k n = s.entry k n) : LetGo c x s t := by
  unfold LetGo at *
  simpa only [entries] using h

/-! ## The end of a context (R57, R58) -/

/-- The reply offered and the outcome counted, before the context becomes FREE. -/
def replied (x : Txn) (code : ResultCode) (fields : List Octet) (s : State) : State :=
  (if x.abandoned then s else offerReply x.lane x.drop (replyBody x.request.kindCode x.kioskTag code fields) s).countTxn
    code.outcomeCounter

section
variable {c : CtxId} {x : Txn} {s : State}

theorem freeCtx_busy (h : s.txn c = some x) : freeCtx c s = releaseAll c x (offLists c s none) := by
  simp only [freeCtx, h, offLists]

@[simp] theorem replied_rc (x : Txn) (code : ResultCode) (fields : List Octet) (s : State) :
    (replied x code fields s).rc = s.rc := by unfold replied; split <;> rfl
@[simp] theorem replied_txn (x : Txn) (code : ResultCode) (fields : List Octet) (s : State) (d : CtxId) :
    (replied x code fields s).txn d = s.txn d := by unfold replied; split <;> rfl
@[simp] theorem replied_ctx (x : Txn) (code : ResultCode) (fields : List Octet) (s : State) (d : CtxId) :
    (replied x code fields s).ctx d = s.ctx d := by unfold replied; split <;> rfl
@[simp] theorem replied_cu (x : Txn) (code : ResultCode) (fields : List Octet) (s : State) :
    (replied x code fields s).cu = s.cu := by unfold replied; split <;> rfl
@[simp] theorem replied_bli (x : Txn) (code : ResultCode) (fields : List Octet) (s : State) :
    (replied x code fields s).bli = s.bli := by unfold replied; split <;> rfl
@[simp] theorem replied_counters (x : Txn) (code : ResultCode) (fields : List Octet) (s : State) :
    (replied x code fields s).dct.counters = s.dct.counters.advance code.outcomeCounter := by
  unfold replied; split <;> rfl
theorem replied_lanes (x : Txn) (code : ResultCode) (fields : List Octet) (s : State) :
    (replied x code fields s).lanes = (if x.abandoned then s
      else offerReply x.lane x.drop (replyBody x.request.kindCode x.kioskTag code fields) s).lanes := rfl
@[simp] theorem replied_entry (x : Txn) (code : ResultCode) (fields : List Octet) (s : State) (k : RecordKind) (n : Nat) :
    (replied x code fields s).entry k n = s.entry k n := by simp only [State.entry, State.pool, replied_rc]

theorem replied_steady (x : Txn) (code : ResultCode) (fields : List Octet) (s : State) :
    (replied x code fields s).steady = s.steady := by
  refine steady_of_outside ?_
  unfold replied; split
  · rfl
  · exact outside_offerReply _ _ _ s

theorem endCtx_busy (h : s.txn c = some x) (code : ResultCode) (fields : List Octet) :
    endCtx c code fields s = releaseAll c x (offLists c (replied x code fields s) none) := by
  rw [← freeCtx_busy (s := replied x code fields s) ((replied_txn x code fields s c).trans h)]
  simp only [endCtx, h, replied]

theorem cardOf_offLists_ne {d : CtxId} (h : d ≠ c) (s : State) (new : Option Txn) :
    cardOf (offLists c s new) d = cardOf s d := by
  rw [cardOf, offLists, State.txn_setTxn_ne _ _ h.symm, leaveLists_txn, cardOf]

theorem gen_offLists (c d : CtxId) (s : State) (new : Option Txn) :
    ((offLists c s new).ctx d).gen = (s.ctx d).gen := (still_setTxn (leaveLists c s) c new).gen d

/-- A context that becomes FREE lets go of all it holds (R57 step 2, R73, R76). -/
theorem released_endCtx (h : s.txn c = some x) (code : ResultCode) (fields : List Octet) :
    Released c x s (endCtx c code fields s) := by
  rw [endCtx_busy h]
  exact released_congr (released_releaseAll c x (replied x code fields s) none) (replied_entry x code fields s)
    (replied_txn x code fields s)

/-- A context that ends, with anything hushed that follows (R57, R58). -/
theorem ended_of_hushed (h : s.txn c = some x) (code : ResultCode) (fields : List Octet) {t : State}
    (hushed : Hushed (endCtx c code fields s).1 t) (steady : t.steady = (endCtx c code fields s).1.steady) :
    Ended c x code fields s t := by
  rw [steady_of_outside (outside_endCtx c code fields s)] at steady
  rw [endCtx_busy h] at hushed
  have follows := (hushed_releaseAll c x (offLists c (replied x code fields s) none)).trans hushed
  refine ⟨?_, ?_, ?_, ?_, fun d other => ?_, ?_, ?_⟩
  · have card := follows.cards c
    rw [cardOf, cardOf, offLists, State.txn_setTxn] at card
    exact Option.map_eq_none_iff.mp card
  · rw [follows.gen c, gen_offLists, replied_ctx]
  · exact follows.counters.trans (replied_counters x code fields s)
  · exact follows.lanes.trans (replied_lanes x code fields s)
  · rw [follows.cards d, cardOf_offLists_ne other, cardOf, replied_txn, cardOf]
  · exact follows.cu.trans (replied_cu x code fields s)
  · refine apart_of_steady steady (follows.link.trans ?_)
    exact congrArg Bli.counters (replied_bli x code fields s)

theorem ended_endCtx (h : s.txn c = some x) (code : ResultCode) (fields : List Octet) :
    Ended c x code fields s (settle (endCtx c code fields s)) :=
  ended_of_hushed h code fields (hushed_settle _ (quiet_endCtx c code fields s)) (steady_settle _)

theorem without_settled_endCtx (h : s.txn c = some x) (code : ResultCode) (fields : List Octet) :
    Without c (releaseAll c x (offLists c (replied x code fields s) none)).1 (settle (endCtx c code fields s)) := by
  have free := txn_offLists c x (replied x code fields s)
  rw [← endCtx_busy h] at free ⊢
  exact without_settle _ (quiet_endCtx c code fields s) free

theorem onNoList_endCtx (h : s.txn c = some x) (code : ResultCode) (fields : List Octet) :
    OnNoList (settle (endCtx c code fields s)) c :=
  (without_settled_endCtx h code fields).onNoList (onNoList_offLists c x _ none)

theorem letGo_endCtx (h : s.txn c = some x) (code : ResultCode) (fields : List Octet) :
    LetGo c x s (settle (endCtx c code fields s)) :=
  letGo_congr (letGo_of_without (without_settled_endCtx h code fields)) (replied_entry x code fields s)

end

/-- Settles O26: the end of a context as the machine carries it out, and the tables of R57, R58, R194 and R203. -/
theorem contextEnds : Obligations.ContextEnds := by
  have committed : ∀ code ∈ [ResultCode.renewed, .holdPlaced, .holdCancelled, .holdSuspended, .holdResumed, .paid,
      .accountInfo], code.outcomeCounter = .committed := by decide
  have failed : ∀ code ∈ [ResultCode.timeout, .uplinkBusy, .uplinkTimeout, .retryLater],
      code.outcomeCounter = .failed := by decide
  have refused : ∀ code ∈ [ResultCode.badRequest, .unknownPatron, .unknownTitle, .unknownItem, .commitRefused,
      .notOnLoan, .notYours, .cardExpired, .blocked, .noRule, .notRenewable, .limitReached, .heldForOther, .finesFull,
      .noExtension, .nothingOwed, .duplicate, .queueFull, .noSuchHold, .notSuspendable],
      code.outcomeCounter = .refused := by decide
  exact ⟨fun c x code fields s h => ⟨released_endCtx h code fields, ended_endCtx h code fields⟩,
    fun code => ⟨committed code, failed code, refused code⟩, fun _ _ _ _ => rfl, fun _ _ _ _ _ _ => rfl,
    rfl, rfl, rfl, rfl⟩

end Sys2Proof.Transactions

namespace Sys2Proof.Transactions

open Sys2Proof Sys2Proof.Machine Sys2Proof.Safety Sys2Proof.KioskLanes

/-! ## A context's own transaction through its releases -/

theorem releaseEntry_lockWaiters (c : CtxId) (k : RecordKind) (n : Nat) (s : State) :
    lockWaiters ((releaseEntry c k n s).1.entry k n) ⊆ lockWaiters (s.entry k n) := by
  rcases releaseEntry_entry c k n s with ⟨e, -⟩ | ⟨-, e⟩ | ⟨copy, was, e⟩ | ⟨copy, w, rest, was, e⟩ <;> rw [e]
  · exact List.Subset.refl _
  · exact List.nil_subset _
  · exact List.nil_subset _
  · rw [was]; exact List.subset_cons_self w rest

/-- The context waits for no lock that a need of its holds. -/
def WaitsForNone (c : CtxId) (x : Txn) (s : State) : Prop :=
  ∀ k key n, x.need k = some ⟨key, some n, true⟩ → c ∉ lockWaiters (s.entry k n)

/-- A step of a context's releases: it keeps waiting for none of what it holds, and its transaction stays. -/
structure OwnRelease (c : CtxId) (x : Txn) (s t : State) : Prop where
  waits : WaitsForNone c x t
  txn : t.txn c = s.txn c

section
variable {c : CtxId} {x : Txn} {s : State} (h : WaitsForNone c x s)
include h

theorem ownRelease_refl : OwnRelease c x s s := ⟨h, rfl⟩

theorem ownRelease_releaseNeed (k : RecordKind) : OwnRelease c x s (releaseNeed c x k s).1 := by
  by_cases holds : ∃ key n, x.need k = some ⟨key, some n, true⟩
  · obtain ⟨key, n, need⟩ := holds
    rw [releaseNeed_held c x k need]
    refine ⟨fun l key' m need' => ?_, releaseEntry_txn c k n s (h k key n need)⟩
    by_cases same : k = l
    · subst same
      obtain rfl : n = m := by rw [need] at need'; cases need'; rfl
      exact fun w => h k key n need (releaseEntry_lockWaiters c k n s w)
    · rw [releaseEntry_entry_other c k n s fun e => absurd e same]
      exact h l key' m need'
  · rw [releaseNeed_none c x k fun key n e => holds ⟨key, n, e⟩]
    exact ownRelease_refl h

theorem ownRelease_releaseLock (k : RecordKind) : OwnRelease c x s (releaseLock c x k s).1 := by
  unfold releaseLock; split
  · exact ownRelease_refl h
  · exact ownRelease_releaseNeed h k

/-- Three steps, one for each record kind. -/
theorem ownRelease_eachKind {f : RecordKind → State → State × List Task}
    (own : ∀ {s : State}, WaitsForNone c x s → ∀ k, OwnRelease c x s (f k s).1) :
    OwnRelease c x s (eachKind f s).1 := by
  have first := own h .patron
  have second := own first.waits .title
  have third := own second.waits .item
  exact ⟨third.waits, (third.txn.trans second.txn).trans first.txn⟩

theorem ownRelease_releaseAll : OwnRelease c x s (releaseAll c x s).1 := by
  have locks := ownRelease_eachKind h fun {s} (h : WaitsForNone c x s) k => ownRelease_releaseLock h k
  have owned := ownRelease_eachKind locks.waits fun {s} (h : WaitsForNone c x s) k => ownRelease_releaseNeed h k
  exact ⟨owned.waits, owned.txn.trans locks.txn⟩

end

/-- A context off every list keeps what was made of it while it lets go of what it holds. -/
theorem txn_releaseAll_offLists (c : CtxId) (x : Txn) (s : State) (new : Option Txn) :
    (releaseAll c x (offLists c s new)).1.txn c = new := by
  rw [(ownRelease_releaseAll fun k _ n _ => offLists_locks c s new k n).txn, offLists, State.txn_setTxn]

/-- A context that holds nothing lets go of nothing. -/
theorem releaseAll_of_nothing {c : CtxId} {x : Txn} (h : ∀ k key n, x.need k ≠ some ⟨key, some n, true⟩) (s : State) :
    releaseAll c x s = (s, []) := by
  simp only [releaseAll, eachKind, releaseLock_none c x _ (h _), releaseNeed_none c x _ (h _), List.append_nil]

/-! ## A regather cause (R53, R55, R59) -/

/-- A regather leaves the transaction as one that starts its lookups, with its count raised (R48, R53). -/
theorem regathered_eq (x : Txn) : x.regathered = { gathering x with regathers := x.regathers + 1 } := by
  unfold Txn.regathered Txn.startNeeds gathering
  cases x.request <;> rfl

theorem regathered_holds_nothing (x : Txn) (k : RecordKind) (key : Key) (n : Nat) :
    x.regathered.need k ≠ some ⟨key, some n, true⟩ := by
  cases k <;> simp [Txn.regathered, Txn.startNeeds, Txn.need, freshNeed]

/-- Back in GATHER, off every list, with all let go of and the regather counted. -/
def again (c : CtxId) (x : Txn) (s : State) : State :=
  (releaseAll c x (offLists c s (some x.regathered))).1.countTxn .regathers

section
variable {c : CtxId} {x : Txn} {s : State} (h : s.txn c = some x)
include h

theorem regather_abandoned (gone : x.abandoned = true) :
    regather c s = releaseAll c x (offLists c s none) := by
  simp only [regather, h, gone, if_true, freeCtx_busy h]

theorem regather_limit (kept : x.abandoned = false) (limit : 2 ≤ x.regathers) :
    regather c s = endCtx c .retryLater [] s := by
  simp only [regather, h, kept, limit, if_true, Bool.false_eq_true, if_false]

theorem regather_running (kept : x.abandoned = false) (below : x.regathers < 2) (running : x.deadline = .running) :
    regather c s = (again c x s, (releaseAll c x (offLists c s (some x.regathered))).2 ++ [.resume c]) := by
  simp only [regather, h, kept, Nat.not_le.mpr below, running, Bool.false_eq_true, if_false, again, offLists]

omit h in
theorem again_txn : (again c x s).txn c = some x.regathered := txn_releaseAll_offLists c x s _

/-- Past its deadline it ends at once, with nothing left to let go of (R55). -/
theorem regather_passed (kept : x.abandoned = false) (below : x.regathers < 2) (passed : x.deadline = .passed) :
    regather c s = ((endCtx c .timeout [] (again c x s)).1, (releaseAll c x (offLists c s (some x.regathered))).2) ∧
      endCtx c .timeout [] (again c x s) = (offLists c (replied x.regathered .timeout [] (again c x s)) none, []) := by
  have ends : endCtx c .timeout [] (again c x s) =
      (offLists c (replied x.regathered .timeout [] (again c x s)) none, []) := by
    rw [endCtx_busy again_txn, releaseAll_of_nothing (regathered_holds_nothing x)]
  refine ⟨?_, ends⟩
  have is : regather c s = ((endCtx c .timeout [] (again c x s)).1,
      (releaseAll c x (offLists c s (some x.regathered))).2 ++ (endCtx c .timeout [] (again c x s)).2) := by
    simp only [regather, h, kept, Nat.not_le.mpr below, passed, Bool.false_eq_true, if_false, again, offLists]
  rw [is, ends, List.append_nil]

omit h in
theorem dropWaiter_of_off {e : Entry} (off : c ∉ waiters e) : e.dropWaiter c = e := by
  have all : ∀ ws : List CtxId, c ∉ ws → ws.filter (· ≠ c) = ws := fun ws off =>
    List.filter_eq_self.mpr fun w hw => decide_eq_true fun same => off (same ▸ hw)
  cases e with
  | empty => rfl
  | transient copy tainted o => rfl
  | filling key ws => exact congrArg (Entry.filling key) (all ws off)
  | valid copy o ws => exact congrArg (Entry.valid copy o) (all ws off)

/-- Whatever a regather cause comes to, the context lets go of all it holds and leaves every list (R53, R73, R76). -/
theorem released_regather : Released c x s (regather c s) := by
  have released := released_releaseAll c x s (some x.regathered)
  cases kept : x.abandoned with
  | true => rw [regather_abandoned h kept]; exact released_releaseAll c x s none
  | false =>
  by_cases limit : 2 ≤ x.regathers
  · rw [regather_limit h kept limit]; exact released_endCtx h _ _
  have below := Nat.not_le.mp limit
  cases deadline : x.deadline with
  | running =>
    rw [regather_running h kept below deadline]
    exact released_after released (fun _ _ => rfl) (fun _ _ => rfl) released.lists (List.subset_append_left _ _)
  | passed =>
    obtain ⟨is, ends⟩ := regather_passed h kept below deadline
    obtain ⟨-, -, -, off⟩ := (onNoList_iff _ c).mp released.lists
    have lists := onNoList_offLists c x.regathered (replied x.regathered .timeout [] (again c x s)) none
    rw [releaseAll_of_nothing (regathered_holds_nothing x)] at lists
    rw [is, ends]
    refine released_after released (fun k n => ?_) (fun d other => ?_) lists (List.Subset.refl _)
    · rw [offLists_entry, replied_entry]; exact dropWaiter_of_off (off k n)
    · rw [offLists, State.txn_setTxn_ne _ _ other.symm, leaveLists_txn, replied_txn]; rfl

omit h in
/-- What a regather sets off is quiet. -/
theorem quiet_regather (c : CtxId) (s : State) : ∀ u ∈ (regather c s).2, u.quiet = true := by
  intro u hu
  cases h : s.txn c with
  | none => rw [regather, h] at hu; cases hu
  | some x =>
  cases kept : x.abandoned with
  | true => rw [regather_abandoned h kept] at hu; exact quiet_releaseAll _ _ _ u hu
  | false =>
  by_cases limit : 2 ≤ x.regathers
  · rw [regather_limit h kept limit] at hu; exact quiet_endCtx _ _ _ _ u hu
  have below := Nat.not_le.mp limit
  cases deadline : x.deadline with
  | running =>
    rw [regather_running h kept below deadline] at hu
    rcases List.mem_append.mp hu with hu | hu
    · exact quiet_releaseAll _ _ _ u hu
    · rw [List.mem_singleton.mp hu]; rfl
  | passed =>
    rw [(regather_passed h kept below deadline).1] at hu
    exact quiet_releaseAll _ _ _ u hu

omit h in
theorem still_offLists (new : Option Txn) : Still s (offLists c s new) := by
  obtain ⟨lanes, counters, cu, link, gen⟩ := still_setTxn (leaveLists c s) c new
  exact ⟨lanes, counters, cu, link, gen⟩

omit h in
theorem still_releaseAll (new : Option Txn) : Still s (releaseAll c x (offLists c s new)).1 :=
  (still_offLists new).trans (.of_hushed (hushed_releaseAll c x _))

omit h in
theorem cards_releaseAll (new : Option Txn) {d : CtxId} (other : d ≠ c) :
    cardOf (releaseAll c x (offLists c s new)).1 d = cardOf s d :=
  ((hushed_releaseAll c x (offLists c s new)).cards d).trans (cardOf_offLists_ne other s new)

omit h in
theorem steady_releaseAll (new : Option Txn) : (releaseAll c x (offLists c s new)).1.steady = s.steady :=
  steady_of_outside (outside_releaseAll c x _)

end

/-- Another state from which the context would end alike: nothing else but the context's own transaction and the cache
differs. -/
theorem ended_of_still {c : CtxId} {x y : Txn} {code : ResultCode} {fields : List Octet} {s u t : State}
    (h : Ended c y code fields u t) (hands : hand y = hand x) (request : y.request = x.request)
    (abandoned : y.abandoned = x.abandoned) (still : Still s u) (others : ∀ d, d ≠ c → cardOf u d = cardOf s d)
    (steady : u.steady = s.steady) : Ended c x code fields s t := by
  have apart := apart_of_steady steady still.link
  refine ⟨h.free, h.generation.trans (still.gen c), by rw [h.counters, still.counters], ?_,
    fun d other => (h.others d other).trans (others d other), h.commits.trans still.cu, ?_⟩
  · obtain ⟨lane, drop, tag⟩ : y.lane = x.lane ∧ y.drop = x.drop ∧ y.kioskTag = x.kioskTag := by
      simpa [hand] using hands
    rw [h.lanes, lane, drop, tag, request, abandoned]
    split
    · exact still.lanes
    · simp only [offerReply, State.mapLane, State.setLane, State.lane, still.lanes]
  · have after := h.apart
    exact ⟨after.powered.trans apart.powered, after.pending.trans apart.pending, after.store.trans apart.store,
      after.day.trans apart.day, after.override.trans apart.override, after.cause.trans apart.cause,
      after.phase.trans apart.phase, after.assembly.trans apart.assembly, after.escape.trans apart.escape,
      after.unitNumber.trans apart.unitNumber, after.link.trans apart.link⟩

section
variable {c : CtxId} {x : Txn} {s t : State} (h : s.txn c = some x) (follows : Hushed (regather c s).1 t)
include h follows

/-- An ABANDONED context is freed without reply or counter (R59). -/
theorem regather_abandoned_outcome (gone : x.abandoned = true) :
    t.txn c = none ∧ t.dct.counters = s.dct.counters ∧ t.lanes = s.lanes := by
  rw [regather_abandoned h gone] at follows
  have still := (still_releaseAll (c := c) (x := x) (s := s) none).trans (.of_hushed follows)
  refine ⟨?_, still.counters, still.lanes⟩
  have card := follows.cards c
  rw [cardOf, cardOf, txn_releaseAll_offLists] at card
  exact Option.map_eq_none_iff.mp card

/-- Any other context below the limit and before its deadline is back in GATHER (R53). -/
theorem regather_running_outcome (kept : x.abandoned = false) (below : x.regathers < 2)
    (running : x.deadline = .running) :
    cardOf t c = some { card x with regathers := x.regathers + 1, outstanding := none, committing := false } ∧
      t.dct.counters = s.dct.counters.advance .regathers ∧ t.lanes = s.lanes ∧
      ∀ d, d ≠ c → cardOf t d = cardOf s d := by
  rw [regather_running h kept below running] at follows
  have still := still_releaseAll (c := c) (x := x) (s := s) (some x.regathered)
  refine ⟨?_, ?_, follows.lanes.trans still.lanes, fun d other => (follows.cards d).trans (cards_releaseAll _ other)⟩
  · rw [follows.cards c, cardOf, again_txn]; rfl
  · rw [follows.counters]
    exact congrArg (·.advance .regathers) still.counters

/-- No other context ends or changes hands by a regather. -/
theorem regather_others {d : CtxId} (other : d ≠ c) : cardOf t d = cardOf s d := by
  rw [follows.cards d]
  cases kept : x.abandoned with
  | true => rw [regather_abandoned h kept]; exact cards_releaseAll _ other
  | false =>
  by_cases limit : 2 ≤ x.regathers
  · rw [regather_limit h kept limit]
    exact (ended_of_hushed h .retryLater [] (.refl _) rfl).others d other
  have below := Nat.not_le.mp limit
  cases deadline : x.deadline with
  | running => exact (regather_running_outcome h (.refl _) kept below deadline).2.2.2 d other
  | passed =>
    rw [(regather_passed h kept below deadline).1]
    exact ((ended_of_hushed again_txn .timeout [] (.refl _) rfl).others d other).trans (cards_releaseAll _ other)

/-- At the limit of regathers the context ends with RETRY_LATER (R53). -/
theorem regather_limit_outcome (steady : t.steady = (regather c s).1.steady) (kept : x.abandoned = false)
    (limit : 2 ≤ x.regathers) : Ended c x .retryLater [] s t := by
  rw [regather_limit h kept limit] at follows steady
  exact ended_of_hushed h _ _ follows steady

/-- Past its deadline the context ends with TIMEOUT as it returns to GATHER (R55). -/
theorem regather_passed_outcome (steady : t.steady = (regather c s).1.steady) (kept : x.abandoned = false)
    (below : x.regathers < 2) (passed : x.deadline = .passed) :
    Ended c x .timeout [] (s.countTxn .regathers) t := by
  rw [(regather_passed h kept below passed).1] at follows steady
  have still := still_releaseAll (c := c) (x := x) (s := s) (some x.regathered)
  refine ended_of_still (ended_of_hushed again_txn .timeout [] follows steady) rfl rfl rfl ?_
    (fun d other => cards_releaseAll (c := c) (x := x) (s := s) _ other) (steady_releaseAll _)
  exact ⟨still.lanes, congrArg (·.advance .regathers) still.counters, still.cu, still.link, still.gen⟩

end

/-- Settles O27: the four courses of a regather cause, each from what the context's releases leave. -/
theorem regatherOrEnd : Obligations.RegatherOrEnd := by
  refine ⟨fun c s => ⟨rfl, rfl⟩, fun c x s h => ⟨released_regather h, ?_⟩⟩
  have follows := hushed_settle (regather c s) (quiet_regather c s)
  have steady := steady_settle (regather c s)
  refine ⟨regather_abandoned_outcome h follows, regather_limit_outcome h follows steady,
    regather_passed_outcome h follows steady, fun kept below running => ?_⟩
  obtain ⟨own, counters, lanes, others⟩ := regather_running_outcome h follows kept below running
  rw [regather_running h kept below running] at own counters lanes others ⊢
  exact ⟨again_txn.trans (congrArg some (regathered_eq x)), List.mem_append_right _ (List.mem_singleton.mpr rfl), own,
    counters, lanes, others⟩

end Sys2Proof.Transactions

namespace Sys2Proof.Transactions

open Sys2Proof Sys2Proof.Machine Sys2Proof.Safety Sys2Proof.KioskLanes

/-! ## The deadline and the commit timer (R55, R115) -/

theorem exec_transactionDeadline {s : State} (h : s.powered = true) (c : CtxId) :
    exec (.transactionDeadline c) s = .next (deadlineFalls c s) :=
  congrArg Host.Outcome.next (live_powered h _)

theorem exec_commitTimeout {s : State} (h : s.powered = true) (c : CtxId) :
    exec (.commitTimeout c) s = .next (commitTimerOut c s) :=
  congrArg Host.Outcome.next (live_powered h _)

theorem deadlineFalls_running {s : State} {c : CtxId} {x : Txn} (h : s.txn c = some x) (running : x.state ≠ .commit) :
    deadlineFalls c s = settle (endCtx c .timeout [] s) := by
  simp only [deadlineFalls, h]
  split
  · rfl
  · rfl
  · next commit => exact absurd commit running

theorem deadlineFalls_commit {s : State} {c : CtxId} {x : Txn} (h : s.txn c = some x) (commit : x.state = .commit) :
    deadlineFalls c s = s.setTxn c (some { x with deadline := .passed }) := by
  simp only [deadlineFalls, h, commit]

theorem commitTimerOut_commit {s : State} {c : CtxId} {x : Txn} {o : Outstanding} (h : s.txn c = some x)
    (commit : x.state = .commit) (update : x.outstanding = some o) (timer : (s.commitRec c).timerRunning = true) :
    commitTimerOut c s = settle (endCtx c .uplinkTimeout [] (timeoutEntries c o.entries (takeOutcome c s))) := by
  simp only [commitTimerOut, h, commit, update, timer, if_true]

/-- The marks of a commit timeout are in the cache alone. -/
theorem timeoutEntries_cache (c : CtxId) (es : List UpdateEntry) (s : State) :
    ∃ r, timeoutEntries c es s = { s with rc := r } := by
  induction es generalizing s with
  | nil => exact ⟨s.rc, rfl⟩
  | cons e es ih =>
    obtain ⟨r, marked⟩ : ∃ r, mapHeldCopy c e.kind e.entry Copy.forceStale s = { s with rc := r } := by
      unfold mapHeldCopy; repeat' split
      all_goals exact ⟨_, rfl⟩
    obtain ⟨r', rest⟩ := ih { s with rc := r }
    exact ⟨r', by rw [timeoutEntries, marked, rest]⟩

/-- Up to the end of the context a commit timeout leaves the contexts alone, but for the UPDATE it clears. -/
theorem timedOut_still (c : CtxId) (es : List UpdateEntry) (s : State) :
    let u := timeoutEntries c es (takeOutcome c s)
    Still (stopped c s) u ∧ (∀ d, u.txn d = (takeOutcome c s).txn d) ∧ u.steady = s.steady := by
  obtain ⟨r, marked⟩ := timeoutEntries_cache c es (takeOutcome c s)
  rw [marked]
  obtain ⟨lanes, counters, cu, link, gen⟩ :=
    still_setTxn (stopped c s) c (((stopped c s).txn c).map fun x => { x with outstanding := none })
  exact ⟨⟨lanes, counters, cu, link, gen⟩, fun d => rfl, steady_of_outside rfl⟩

theorem ended_commitTimeout {s : State} {c : CtxId} {x : Txn} (es : List UpdateEntry) (h : s.txn c = some x) :
    Ended c x .uplinkTimeout [] (stopped c s)
      (settle (endCtx c .uplinkTimeout [] (timeoutEntries c es (takeOutcome c s)))) := by
  obtain ⟨still, txns, steady⟩ := timedOut_still c es s
  have busy : (timeoutEntries c es (takeOutcome c s)).txn c = some { x with outstanding := none } := by
    rw [txns c, takeOutcome, State.txn_mapTxn, State.setCommitRec_txn, h]; rfl
  refine ended_of_still (ended_endCtx busy .uplinkTimeout []) rfl rfl rfl still (fun d other => ?_) steady
  rw [cardOf, txns d, takeOutcome, State.txn_mapTxn_ne _ _ other.symm]; rfl

/-- Settles O28: the deadline by the context's state, and the commit timer running or stopped. -/
theorem deadlineAndCommitTimeout : Obligations.DeadlineAndCommitTimeout := by
  intro s c x powered h
  rw [exec_transactionDeadline powered, exec_commitTimeout powered]
  refine ⟨fun running => ⟨_, rfl, deadlineFalls_running h running, ?_⟩,
    fun commit => congrArg _ (deadlineFalls_commit h commit),
    fun o commit update timer => ⟨_, rfl, commitTimerOut_commit h commit update timer, ?_⟩, fun stopped => ?_⟩
  · rw [deadlineFalls_running h running]
    exact ⟨ended_endCtx h .timeout [], onNoList_endCtx h .timeout [], letGo_endCtx h .timeout []⟩
  · rw [commitTimerOut_commit h commit update timer]
    exact ended_commitTimeout o.entries h
  · rw [commitTimerOut, stopped]; rfl

/-! ## The records a context can use (R68) -/

theorem goodCopy_iff {c : CtxId} {k : RecordKind} {key : Key} {n : Nat} {s : State} {copy : Copy} :
    goodCopy c k key n s = some copy ↔ Good s c k key n copy := by
  unfold goodCopy Good
  cases e : s.entry k n with
  | empty => simp
  | filling key' ws => simp
  | valid found o ws =>
    simp only [Option.ite_none_right_eq_some, Option.some.injEq, Entry.valid.injEq, reduceCtorEq, exists_false, or_false]
    constructor
    · rintro ⟨same, rfl⟩; exact ⟨same, _, _, rfl, rfl, rfl⟩
    · rintro ⟨same, _, _, rfl, -, -⟩; exact ⟨same, rfl⟩
  | transient found tainted o =>
    simp only [Option.ite_none_right_eq_some, Option.some.injEq, Entry.transient.injEq, reduceCtorEq, exists_false,
      and_false, false_or]
    constructor
    · rintro ⟨rfl, rfl⟩; exact ⟨_, rfl, rfl, rfl⟩
    · rintro ⟨_, rfl, -, rfl⟩; exact ⟨rfl, rfl⟩

theorem goodCopy_eq_none_iff {c : CtxId} {k : RecordKind} {key : Key} {n : Nat} {s : State} :
    goodCopy c k key n s = none ↔ ∀ copy, ¬ Good s c k key n copy := by
  rw [Option.eq_none_iff_forall_ne_some]
  exact forall_congr' fun copy => not_congr goodCopy_iff

theorem readCopy_need {c : CtxId} {x : Txn} {k : RecordKind} {key : Key} {n : Nat} {held : Bool}
    (h : x.need k = some ⟨key, some n, held⟩) (s : State) : readCopy c x k s = goodCopy c k key n s := by
  simp only [readCopy, h]

/-- What a context reads through its needs is told from the entries alone. -/
theorem readCopy_congr {s u : State} (entries : ∀ k n, u.entry k n = s.entry k n) (c : CtxId) (x : Txn) (k : RecordKind) :
    readCopy c x k u = readCopy c x k s := by
  simp only [readCopy, goodCopy, entries]

/-! ## The images a decision reads (R69, R136) -/

theorem setPool_pool (s : State) (k : RecordKind) : s.setPool k (s.pool k) = s := by cases k <;> rfl

/-- A pool whose held entry has been read. -/
def readPool (x : Txn) (k : RecordKind) (p : Pool) : Pool :=
  match x.need k with
  | some ⟨_, some n, true⟩ => p.touch n
  | _ => p

theorem touchRead_setPool (x : Txn) (s : State) (k : RecordKind) :
    touchRead x s k = s.setPool k (readPool x k (s.pool k)) := by
  unfold touchRead readPool
  rcases x.need k with _ | ⟨_, _ | n, _ | _⟩
  case some.some.true => rfl
  all_goals exact (setPool_pool s k).symm

theorem readHeld_eq (x : Txn) (s : State) : readHeld x s = imagesRead x s := by
  unfold readHeld imagesRead
  cases x.request <;> first
    | rfl
    | (simp only [Request.isAccount, Bool.false_eq_true, if_false, RecordKind.order, List.foldl_cons, List.foldl_nil,
        touchRead_setPool]; rfl)

theorem imagesRead_cache (x : Txn) (s : State) : ∃ r, imagesRead x s = { s with rc := r } := by
  unfold imagesRead; dsimp only; split <;> exact ⟨_, rfl⟩

@[simp] theorem imagesRead_entry (x : Txn) (s : State) (k : RecordKind) (n : Nat) :
    (imagesRead x s).entry k n = s.entry k n := by
  unfold imagesRead; dsimp only; split
  · rfl
  · cases k <;> simp only [State.entry, State.pool, Cache.pool, Pool.entry] <;> split <;> rfl

theorem imagesRead_lru_held {x : Txn} {s : State} {k : RecordKind} {key : Key} {n : Nat}
    (need : x.need k = some ⟨key, some n, true⟩) (reads : ∀ p, x.request ≠ .account p) (mem : n ∈ (s.pool k).lru) :
    ((imagesRead x s).pool k).lru = (s.pool k).lru.erase n ++ [n] := by
  unfold imagesRead; dsimp only; split
  · next p account => exact absurd account (reads p)
  · cases k <;> simp only [State.pool, Cache.pool, need] at mem ⊢ <;> exact if_pos mem

theorem imagesRead_account {x : Txn} {p : Key} (h : x.request = .account p) (s : State) : imagesRead x s = s := by
  unfold imagesRead; dsimp only; rw [h]

/-! ## How a decision ends (R137, R139) -/

section
variable {c : CtxId} {x : Txn} {s : State} {d : Decision}

theorem applyDecision_refuse {code : ResultCode} (h : d.verdict = .refuse code) :
    applyDecision c x d s = settle (endCtx c code [] (imagesRead x s)) := by
  simp only [applyDecision, h, readHeld_eq]

theorem applyDecision_succeed {code : ResultCode} {fields : List Octet} (h : d.verdict = .succeed code fields) :
    applyDecision c x d s = settle (endCtx c code fields (imagesRead x s)) := by
  simp only [applyDecision, h, readHeld_eq]

theorem applyDecision_wait {b : BlockId} (h : d.verdict = .wait b) :
    applyDecision c x d s = beginWait c x b (imagesRead x s) := by
  simp only [applyDecision, h, readHeld_eq]

theorem applyDecision_commit {code : ResultCode} {fields : List Octet} {images : NewImages}
    (h : d.verdict = .commit code fields images) :
    applyDecision c x d s = queueUpdate c images code fields (imagesRead x s) := by
  simp only [applyDecision, h, readHeld_eq]

/-- A decision that ends its context, from the images it has read. -/
theorem ended_imagesRead (h : s.txn c = some x) (code : ResultCode) (fields : List Octet) :
    Ended c x code fields s (settle (endCtx c code fields (imagesRead x s))) ∧
      LetGo c x s (settle (endCtx c code fields (imagesRead x s))) := by
  obtain ⟨r, read⟩ := imagesRead_cache x s
  have busy : (imagesRead x s).txn c = some x := by rw [read]; exact h
  refine ⟨ended_of_still (ended_endCtx busy code fields) rfl rfl rfl ?_ ?_ ?_,
    letGo_congr (letGo_endCtx busy code fields) (imagesRead_entry x s)⟩ <;> rw [read]
  · exact ⟨rfl, rfl, rfl, rfl, fun _ => rfl⟩
  · exact fun _ _ => rfl
  · exact steady_of_outside rfl

theorem offerUpdate_rc (c : CtxId) (f : Frame) (s : State) : (offerUpdate c f s).rc = s.rc := by
  unfold offerUpdate; dsimp only; split <;> rfl

theorem queueUpdate_rc (c : CtxId) (images : NewImages) (code : ResultCode) (fields : List Octet) (s : State) :
    (queueUpdate c images code fields s).rc = s.rc := by
  unfold queueUpdate; split
  · rfl
  · exact offerUpdate_rc _ _ _

/-- A decision that neither refuses nor ends its context leaves the cache as its reading left it. -/
theorem applyDecision_rc (h : (∃ b, d.verdict = .wait b) ∨ ∃ code fields images, d.verdict = .commit code fields images) :
    (applyDecision c x d s).rc = (imagesRead x s).rc := by
  rcases h with ⟨b, h⟩ | ⟨code, fields, images, h⟩
  · rw [applyDecision_wait h]; rfl
  · rw [applyDecision_commit h]; exact queueUpdate_rc _ _ _ _ _

theorem applyDecision_entry (h : (∃ b, d.verdict = .wait b) ∨ ∃ code fields images, d.verdict = .commit code fields images)
    (k : RecordKind) (n : Nat) : (applyDecision c x d s).entry k n = s.entry k n := by
  rw [← imagesRead_entry x s k n, State.entry, State.pool, applyDecision_rc h]; rfl

end

/-! ## The UPDATE of a decision (R107-R109) -/

section
variable (c : CtxId) (f : Frame) (s : State)

theorem offerUpdate_lanes : (offerUpdate c f s).lanes = s.lanes := by
  unfold offerUpdate; dsimp only; split <;> rfl

theorem offerUpdate_dct : (offerUpdate c f s).dct = s.dct := by
  unfold offerUpdate; dsimp only; split <;> rfl

theorem offerUpdate_commitRec : ((offerUpdate c f s).commitRec c).timerRunning = true ∧
    ((offerUpdate c f s).commitRec c).onLine = true := by
  unfold offerUpdate; dsimp only; split
  · next busy => rw [State.commitRec_setCommitRec]; exact ⟨rfl, busy⟩
  · rw [show ∀ u : State, (sendFrame f u).commitRec c = u.commitRec c from fun _ => rfl, State.commitRec_setCommitRec]
    exact ⟨rfl, rfl⟩

/-- One of the context is on the line: the new one is held back (R109). -/
theorem offerUpdate_busy (busy : (s.commitRec c).onLine = true) :
    ((offerUpdate c f s).commitRec c).owed = some f ∧ (offerUpdate c f s).bli = s.bli := by
  simp only [offerUpdate, busy, if_true, State.commitRec_setCommitRec, State.setCommitRec_bli, and_self]

theorem offerUpdate_clear (clear : (s.commitRec c).onLine = false) :
    (offerUpdate c f s).bli.held = s.bli.held ++ [f] := by
  simp only [offerUpdate, clear, Bool.false_eq_true, if_false, sendFrame]
  exact BranchLink.held_enqueue _ f

end

section
variable {c : CtxId} {x : Txn} {s : State} {d : Decision}

/-- A rule wait begins: the context stays in DECIDE, waits, and is counted (R139). -/
theorem wait_outcome {b : BlockId} (wait : d.verdict = .wait b) :
    (applyDecision c x d s).txn c = some { x with ruleWait := some b } ∧
      (applyDecision c x d s).dct.counters = s.dct.counters.advance .ruleWaits ∧
      c ∈ (applyDecision c x d s).au.waits ∧ (applyDecision c x d s).lanes = s.lanes ∧
      ∀ k n, (applyDecision c x d s).entry k n = s.entry k n := by
  refine ⟨?_, ?_, ?_, ?_, applyDecision_entry (.inl ⟨b, wait⟩)⟩ <;> rw [applyDecision_wait wait]
  · exact State.txn_setTxn (imagesRead x s) c _
  · obtain ⟨r, read⟩ := imagesRead_cache x s
    rw [read]; rfl
  · exact List.mem_append_right _ (List.mem_singleton.mpr rfl)
  · obtain ⟨r, read⟩ := imagesRead_cache x s
    rw [read]; rfl

/-- The UPDATE of a decision, with what the context holds for its outcome (R106, R108). -/
def updateOf (c : CtxId) (x : Txn) (images : NewImages) (code : ResultCode) (fields : List Octet) (s : State) :
    Outstanding :=
  ⟨x.regathers, updateEntries c x images s, x.request.reference, code, fields⟩

theorem applyDecision_update (h : s.txn c = some x) {code : ResultCode} {fields : List Octet} {images : NewImages}
    (commit : d.verdict = .commit code fields images) : ∃ r, applyDecision c x d s =
      offerUpdate c (.update c (s.ctx c).gen x.regathers (updateEntries c x images s) x.request.reference)
        (({ s with rc := r } : State).setTxn c
          (some { x with state := .commit, outstanding := some (updateOf c x images code fields s) })) := by
  obtain ⟨r, read⟩ := imagesRead_cache x s
  have named : updateEntries c x images (imagesRead x s) = updateEntries c x images s := by
    have each : updateEntry c x images (imagesRead x s) = updateEntry c x images s := funext fun k => by
      simp only [updateEntry, readCopy_congr (imagesRead_entry x s)]
    rw [updateEntries, each]; rfl
  refine ⟨r, ?_⟩
  rw [applyDecision_commit commit, ← read, updateOf, ← named]
  have busy : (imagesRead x s).txn c = some x := by rw [read]; exact h
  have gen : ((imagesRead x s).ctx c).gen = (s.ctx c).gen := by rw [read]; rfl
  simp only [queueUpdate, busy, gen]

end

/-- Settles O37: what is read, and the four ends of a decision. -/
theorem decisionOutcomes : Obligations.DecisionOutcomes := by
  intro s c x d h
  refine ⟨fun k key n goes mem => ?_, fun code refused => ?_, fun code fields succeeds => ?_,
    fun b wait => wait_outcome wait, fun code fields images commit => ?_,
    fun k key n held copy need => by rw [readCopy_need need, goodCopy_iff]⟩
  · rw [State.pool, applyDecision_rc goes]
    exact ⟨fun need reads => imagesRead_lru_held need reads mem, fun p account => by rw [imagesRead_account account]; rfl⟩
  · rw [applyDecision_refuse refused]; exact ⟨rfl, ended_imagesRead h code []⟩
  · rw [applyDecision_succeed succeeds]; exact ⟨rfl, ended_imagesRead h code fields⟩
  · have same := applyDecision_entry (c := c) (x := x) (s := s) (.inr ⟨code, fields, images, commit⟩)
    obtain ⟨r, sent⟩ := applyDecision_update h commit
    obtain ⟨timer, mark⟩ := offerUpdate_commitRec c
      (.update c (s.ctx c).gen x.regathers (updateEntries c x images s) x.request.reference)
      (({ s with rc := r } : State).setTxn c
        (some { x with state := .commit, outstanding := some (updateOf c x images code fields s) }))
    rw [← sent] at timer mark
    refine ⟨?_, timer, mark, fun busy => ?_, fun clear => ?_, ?_, ?_, same⟩
    · rw [sent, State.txn, State.ctx, offerUpdate_dct]
      exact State.txn_setTxn _ c _
    · rw [sent]; exact offerUpdate_busy _ _ _ busy
    · rw [sent]; exact offerUpdate_clear _ _ _ clear
    · rw [sent]; exact offerUpdate_lanes _ _ _
    · rw [sent, offerUpdate_dct]; rfl

end Sys2Proof.Transactions

namespace Sys2Proof.Transactions

open Sys2Proof Sys2Proof.Machine Sys2Proof.Safety Sys2Proof.KioskLanes

/-! ## Kiosk payloads (R44, R194) -/

theorem keyAt_first (a : Key) (rest : List Octet) : keyAt (beOctets 4 a.toNat ++ rest) 0 = a :=
  keyAt_append a [] rest 0 rfl

theorem keyAt_second (a b : Key) (rest : List Octet) :
    keyAt (beOctets 4 a.toNat ++ (beOctets 4 b.toNat ++ rest)) 4 = b := by
  rw [← List.append_assoc]
  exact keyAt_append b (beOctets 4 a.toNat) rest 4 (beOctets_length 4 _).symm

/-- A word behind a key is read back. -/
theorem word_behind {n : Nat} (w place : Nat) (front rest : List Octet) (v : BitVec n)
    (behind : place = front.length) (fits : 256 ^ w = 2 ^ n) :
    BitVec.ofNat n (natAt (front ++ (beOctets w v.toNat ++ rest)) place w) = v := by
  rw [← List.append_assoc, natAt_beOctets front rest place w _ behind, fits, Nat.mod_eq_of_lt v.isLt, BitVec.ofNat_toNat,
    BitVec.setWidth_eq]

section
variable (a b : Key)

/-- The kinds whose payload opens with two keys: the length of the rest, and what they name. -/
theorem parse_twoKeys (rest : List Octet) :
    let payload := beOctets 4 a.toNat ++ (beOctets 4 b.toNat ++ rest)
    Request.parse 1 payload = (if rest.length = 0 ∧ a ≠ 0 ∧ b ≠ 0 then some (.renew a b) else none) ∧
    Request.parse 2 payload = (if rest.length = 1 ∧ a ≠ 0 ∧ b ≠ 0 then some (.hold a b (payload.getD 8 0)) else none) ∧
    Request.parse 3 payload = (if rest.length = 0 ∧ a ≠ 0 ∧ b ≠ 0 then some (.cancel a b) else none) ∧
    Request.parse 4 payload = (if rest.length = 2 ∧ a ≠ 0 ∧ b ≠ 0
      then some (.suspend a b (BitVec.ofNat 16 (natAt payload 8 2))) else none) ∧
    Request.parse 5 payload = (if rest.length = 0 ∧ a ≠ 0 ∧ b ≠ 0 then some (.resume a b) else none) := by
  have length : ∀ n, (beOctets 4 a.toNat ++ (beOctets 4 b.toNat ++ rest)).length = 8 + n ↔ rest.length = n := fun n => by
    simp only [List.length_append, beOctets_length]; omega
  simp only [Request.parse, keyAt_first, keyAt_second, decide_eq_true_eq]
  exact ⟨if_congr (and_congr_left' (length 0)) rfl rfl, if_congr (and_congr_left' (length 1)) rfl rfl,
    if_congr (and_congr_left' (length 0)) rfl rfl, if_congr (and_congr_left' (length 2)) rfl rfl,
    if_congr (and_congr_left' (length 0)) rfl rfl⟩

/-- The kinds whose payload opens with one key. -/
theorem parse_oneKey (rest : List Octet) :
    let payload := beOctets 4 a.toNat ++ rest
    Request.parse 6 payload = (if rest.length = 12 ∧ a ≠ 0
      then some (.pay a (BitVec.ofNat 32 (natAt payload 4 4)) (BitVec.ofNat 64 (natAt payload 8 8))) else none) ∧
    Request.parse 7 payload = (if rest.length = 0 ∧ a ≠ 0 then some (.account a) else none) := by
  have length : ∀ n, (beOctets 4 a.toNat ++ rest).length = 4 + n ↔ rest.length = n := fun n => by
    simp only [List.length_append, beOctets_length]; omega
  simp only [Request.parse, keyAt_first]
  exact ⟨if_congr (and_congr_left' (length 12)) rfl rfl, if_congr (and_congr_left' (length 0)) rfl rfl⟩

end

/-- The length of a kind's payload (R44). -/
theorem parse_length {kind : Octet} {payload : List Octet} (h : payload.length ≠ (if kind = 2 then 9
    else if kind = 4 then 10 else if kind = 6 then 16 else if kind = 7 then 4 else 8)) :
    Request.parse kind payload = none := by
  have number : ∀ n : Nat, n < 256 → kind.toNat = n → kind = BitVec.ofNat 8 n := fun n _ e => by
    rw [← e, BitVec.ofNat_toNat, BitVec.setWidth_eq]
  unfold Request.parse; dsimp only; split
  case h_8 => rfl
  all_goals
    next e =>
    rw [number _ (by decide) e] at h
    exact if_neg fun both => h both.1

/-- Settles O25: what each kind reads at each place, its length, and the keys that are 0. -/
theorem requestsParse : Obligations.RequestsParse := by
  intro a b x day amount reference
  dsimp only
  have account := (parse_oneKey a []).2
  have two := parse_twoKeys a b []
  have hold := (parse_twoKeys a b [x]).2.1
  have suspend := (parse_twoKeys a b (beOctets 2 day.toNat)).2.2.2.1
  have paid := (parse_oneKey a (beOctets 4 amount.toNat ++ beOctets 8 reference.toNat)).1
  simp only [List.append_nil] at account two
  obtain ⟨renew, -, cancel, -, resume⟩ := two
  have pickup : (beOctets 4 a.toNat ++ (beOctets 4 b.toNat ++ [x])).getD 8 0 = x := by
    rw [← List.append_assoc]; exact getD_append_cons _ [] 8 (by simp) x
  have untilDay : BitVec.ofNat 16 (natAt (beOctets 4 a.toNat ++ (beOctets 4 b.toNat ++ beOctets 2 day.toNat)) 8 2) = day := by
    have read := word_behind 2 8 (beOctets 4 a.toNat ++ beOctets 4 b.toNat) [] day (by simp) rfl
    rwa [List.append_nil, List.append_assoc] at read
  have sum : BitVec.ofNat 32 (natAt (beOctets 4 a.toNat ++ (beOctets 4 amount.toNat ++ beOctets 8 reference.toNat)) 4 4) =
      amount := word_behind 4 4 _ _ amount (by simp) rfl
  have mark : BitVec.ofNat 64 (natAt (beOctets 4 a.toNat ++ (beOctets 4 amount.toNat ++ beOctets 8 reference.toNat)) 8 8) =
      reference := by
    have read := word_behind 8 8 (beOctets 4 a.toNat ++ beOctets 4 amount.toNat) [] reference (by simp) rfl
    rwa [List.append_nil, List.append_assoc] at read
  rw [pickup] at hold
  rw [untilDay] at suspend
  rw [sum, mark] at paid
  simp only [List.append_assoc]
  refine ⟨fun ha hb => ⟨renew.trans (if_pos ⟨rfl, ha, hb⟩), hold.trans (if_pos ⟨rfl, ha, hb⟩),
      cancel.trans (if_pos ⟨rfl, ha, hb⟩), suspend.trans (if_pos ⟨rfl, ha, hb⟩), resume.trans (if_pos ⟨rfl, ha, hb⟩)⟩,
    fun ha => ⟨paid.trans (if_pos ⟨rfl, ha⟩), account.trans (if_pos ⟨rfl, ha⟩)⟩,
    fun ha => ⟨paid.trans (if_neg fun both => both.2 ha), account.trans (if_neg fun both => both.2 ha)⟩, fun zero => ?_,
    fun kind payload => parse_length⟩
  have none : ∀ {p : Prop}, ¬ (p ∧ a ≠ 0 ∧ b ≠ 0) := fun both => zero.elim both.2.1 both.2.2
  exact ⟨renew.trans (if_neg none), hold.trans (if_neg none), cancel.trans (if_neg none), suspend.trans (if_neg none),
    resume.trans (if_neg none)⟩

end Sys2Proof.Transactions

namespace Sys2Proof.Transactions

open Sys2Proof Sys2Proof.Machine Sys2Proof.Safety Sys2Proof.KioskLanes

/-! ## The lowest that meets a test -/

theorem find_lowest {n : Nat} {l : List (Fin n)} (sorted : l.Pairwise (· < ·)) {p : Fin n → Bool} {a : Fin n}
    (mem : a ∈ l) (h : p a = true) (lowest : ∀ b, b < a → p b = false) : l.find? p = some a := by
  induction l with
  | nil => cases mem
  | cons b l ih =>
    obtain ⟨below, sorted⟩ := List.pairwise_cons.mp sorted
    rcases List.mem_cons.mp mem with rfl | later
    · exact List.find?_cons_of_pos h
    · rw [List.find?_cons_of_neg (by rw [lowest b (below a later)]; decide)]
      exact ih sorted later

theorem freeContext_some {s : State} {c : CtxId} (h : LowestFree s c) : freeContext s = some c := by
  obtain ⟨free, lowest⟩ := h
  exact find_lowest (by decide) (mem_allContexts c) (by rw [free]; rfl) fun b lt =>
    Option.isNone_eq_false_iff.mpr (Option.isSome_iff_ne_none.mpr (lowest b lt))

theorem freeContext_none {s : State} (h : ∀ c, s.txn c ≠ none) : freeContext s = none :=
  List.find?_eq_none.mpr fun c _ free => h c (Option.isNone_iff_eq_none.mp free)

theorem mem_allSlots (i : SlotId) : i ∈ allSlots := by revert i; decide

theorem idleSlot_some {s : State} {i : SlotId} (idle : (s.slot i).fill = none)
    (lowest : ∀ j, j < i → (s.slot j).fill ≠ none) : idleSlot s = some i :=
  find_lowest (by decide) (mem_allSlots i) (by rw [idle]; rfl) fun j lt =>
    Option.isNone_eq_false_iff.mpr (Option.isSome_iff_ne_none.mpr (lowest j lt))

theorem idleSlot_none {s : State} (h : ∀ i, (s.slot i).fill ≠ none) : idleSlot s = none :=
  List.find?_eq_none.mpr fun i _ idle => h i (Option.isNone_iff_eq_none.mp idle)

/-! ## Dispatch (R40-R45, R47) -/

theorem inFlight_eq_flying (s : State) (i : LaneId) (d : DropId) : Machine.inFlight i d s = flying s i d := by
  rw [flying, List.filter_filterMap, Machine.inFlight]
  refine List.filterMap_congr fun c _ => ?_
  cases s.txn c with
  | none => rfl
  | some x =>
    by_cases own : x.lane = i ∧ x.drop = d <;>
      simp only [own, Option.filter_some, and_self, if_true, if_false, decide_true, decide_false, Bool.false_eq_true]

theorem isLocalKind_iff (kind : Octet) : isLocalKind kind = true ↔ 1 ≤ kind.toNat ∧ kind.toNat ≤ 7 := decide_eq_true_iff

/-- A SERVED drop's frame of a local kind, by the override (R41). -/
theorem treatment_own {kind : Octet} (own : isLocalKind kind = true) :
    treatment .served kind .localKinds = .adjudicated ∧ treatment .served kind .relayAll = .relayed ∧
      treatment .served kind .refuseAll = .refusedOffline := by
  simp only [treatment, own, if_true, and_self]

theorem newTxn_eq_accepted (i : LaneId) (d : DropId) (tag : Octet) (req : Request) :
    newTxn i d tag req = accepted i d tag req := by
  cases req <;> rfl

section
variable {i : LaneId} {d : DropId} {kind tag : Octet} {payload : List Octet} {s : State}

theorem dispatch_relays (h : treatment ((s.lane i).dropRec d).enrolment kind s.um.override = .relayed) :
    dispatch i d (kind :: tag :: payload) s = offerRelay i d (kind :: tag :: payload) s := by
  simp only [dispatch, List.getD_cons_zero, h]

theorem dispatch_refusesOffline (h : treatment ((s.lane i).dropRec d).enrolment kind s.um.override = .refusedOffline) :
    dispatch i d (kind :: tag :: payload) s = offerReply i d [kind, tag, 0x13] s := by
  simp only [dispatch, List.getD_cons_zero, h]; rfl

/-- What the acceptance checks give is what an adjudicated frame comes to. -/
theorem dispatch_adjudicates (h : treatment ((s.lane i).dropRec d).enrolment kind s.um.override = .adjudicated) :
    (∀ code, acceptance i d kind tag payload s = .error code →
      dispatch i d (kind :: tag :: payload) s = offerReply i d [kind, tag, code.code] s) ∧
    ∀ c req, acceptance i d kind tag payload s = .ok (c, req) →
      dispatch i d (kind :: tag :: payload) s = accept c i d tag req s := by
  constructor
  · intro code error
    simp only [dispatch, List.getD_cons_zero, h, List.getD_cons_succ, List.drop_succ_cons, List.drop_zero, error]; rfl
  · intro c req ok
    simp only [dispatch, List.getD_cons_zero, h, List.getD_cons_succ, List.drop_succ_cons, List.drop_zero, ok]

end

/-- The acceptance checks behind check 2, in their order (R43). -/
theorem acceptance_checks {i : LaneId} {d : DropId} {kind tag : Octet} {payload : List Octet} {s : State}
    (day : s.um.day ≠ 0) (service : s.um.service = .normal) :
    (Request.parse kind payload = none → acceptance i d kind tag payload s = .error .badRequest) ∧
    ∀ req, Request.parse kind payload = some req →
      (2 ≤ (flying s i d).length → acceptance i d kind tag payload s = .error .busy) ∧
      ((flying s i d).length < 2 → (∃ x ∈ flying s i d, x.kioskTag = tag) →
        acceptance i d kind tag payload s = .error .badRequest) ∧
      ((flying s i d).length < 2 → (∀ x ∈ flying s i d, x.kioskTag ≠ tag) →
        ((∀ c, s.txn c ≠ none) → acceptance i d kind tag payload s = .error .busy) ∧
        ∀ c, LowestFree s c → acceptance i d kind tag payload s = .ok (c, req)) := by
  simp only [acceptance, if_neg day, if_neg (not_not.mpr service), inFlight_eq_flying]
  refine ⟨fun unread => by rw [unread], fun req read => ?_⟩
  rw [read]
  refine ⟨fun two => if_pos two, fun few same => ?_, fun few fresh => ?_⟩
  · dsimp only
    rw [if_neg (Nat.not_le.mpr few), if_pos]
    obtain ⟨x, mem, is⟩ := same
    exact List.any_eq_true.mpr ⟨x, mem, decide_eq_true is⟩
  · dsimp only
    rw [if_neg (Nat.not_le.mpr few), if_neg]
    · exact ⟨fun full => by rw [freeContext_none full], fun c free => by rw [freeContext_some free]⟩
    · rw [List.any_eq_true]
      rintro ⟨x, mem, is⟩
      exact fresh x mem (of_decide_eq_true is)

/-- An accepted frame: the context at its next generation, gathering, with what follows (R47, R48). -/
theorem accept_outcome (c : CtxId) (i : LaneId) (d : DropId) (tag : Octet) (req : Request) (s : State) :
    let t := accept c i d tag req s
    t = settle ((s.setCtx c ⟨(s.ctx c).gen + 1, some (accepted i d tag req)⟩).countTxn .accepted, [.resume c]) ∧
      (t.ctx c).gen = (s.ctx c).gen + 1 ∧ cardOf t c = some ⟨i, d, tag, req, .running, 0, false, none, false⟩ ∧
      (∀ c', c' ≠ c → cardOf t c' = cardOf s c') ∧ t.dct.counters = s.dct.counters.advance .accepted ∧
      t.lanes = s.lanes ∧ t.rs = s.rs := by
  rw [accept, newTxn_eq_accepted]
  generalize is : (s.setCtx c ⟨(s.ctx c).gen + 1, some (accepted i d tag req)⟩).countTxn .accepted = u
  have quiet : ∀ t ∈ [Task.resume c], t.quiet = true := by simp [Task.quiet]
  have follows := hushed_settle (u, [.resume c]) quiet
  have steady := steady_settle (u, [.resume c])
  have store : (settle (u, [.resume c])).rs = u.rs := congrArg Steady.rs steady
  refine ⟨rfl, ?_, ?_, fun c' other => ?_, ?_, ?_, ?_⟩
  · rw [follows.gen c, ← is, State.countTxn_ctx, State.ctx_setCtx]
  · rw [follows.cards c, cardOf, ← is, State.countTxn_txn, State.txn_setCtx]
    cases req <;> rfl
  · rw [follows.cards c', cardOf, ← is, State.countTxn_txn, State.txn_setCtx_ne _ _ other.symm, cardOf]
  · rw [follows.counters, ← is]; rfl
  · rw [follows.lanes, ← is]; rfl
  · rw [store, ← is]; rfl

/-! ## Lookups (R64-R67, R85) -/

theorem found_iff (s : State) (k : RecordKind) (key : Key) (n : Nat) :
    Entry.found key (s.entry k n) = true ↔ HoldsKey s k key n := by
  unfold HoldsKey
  cases s.entry k n <;> simp [Entry.found]

theorem entry_eq_getElem {s : State} {k : RecordKind} {n : Nat} (h : n < (s.pool k).entries.length) :
    s.entry k n = (s.pool k).entries[n] := List.getD_eq_getElem _ _ h

/-- The entry a lookup finds is the one that holds the key (R64). -/
theorem find_some {s : State} {k : RecordKind} {key : Key} {n : Nat} (h : HoldsKey s k key n)
    (only : ∀ m, HoldsKey s k key m → m = n) : (s.pool k).find key = some n := by
  have small : n < (s.pool k).entries.length := lt_of_entry fun e => by rw [HoldsKey, e] at h; exact h
  refine List.findIdx?_eq_some_iff_getElem.mpr ⟨small, ?_, fun m lt found => ?_⟩
  · rw [← entry_eq_getElem small, found_iff]; exact h
  · rw [← entry_eq_getElem (lt.trans small), found_iff] at found
    exact absurd (only m found) lt.ne

theorem find_none {s : State} {k : RecordKind} {key : Key} (h : ∀ n, ¬ HoldsKey s k key n) :
    (s.pool k).find key = none := by
  refine List.findIdx?_eq_none_iff.mpr fun e mem => Bool.eq_false_iff.mpr fun found => ?_
  obtain ⟨n, small, rfl⟩ := List.mem_iff_getElem.mp mem
  rw [← entry_eq_getElem small, found_iff] at found
  exact h n found

theorem evictable_iff (s : State) (k : RecordKind) (n : Nat) : (s.entry k n).evictable = true ↔ Evictable s k n := by
  unfold Evictable Entry.evictable
  split
  · next copy e => exact ⟨fun _ => ⟨copy, e⟩, fun _ => rfl⟩
  · next other => exact ⟨Bool.noConfusion, fun ⟨copy, e⟩ => absurd e (other copy)⟩

/-- The room an allocation finds is the entry it takes (R65, R66). -/
theorem room_iff (s : State) (k : RecordKind) (n : Nat) : (s.pool k).room = some n ↔ Takes s k n := by
  have isEmpty : ∀ {m} (h : m < (s.pool k).entries.length),
      decide ((s.pool k).entries[m] = Entry.empty) = true ↔ s.entry k m = .empty := fun h => by
    rw [decide_eq_true_eq, entry_eq_getElem h]
  unfold Pool.room Takes
  cases first : (s.pool k).entries.findIdx? fun e => decide (e = .empty) with
  | some m =>
    obtain ⟨small, empty, lower⟩ := List.findIdx?_eq_some_iff_getElem.mp first
    rw [isEmpty small] at empty
    have lowest : ∀ j, j < m → s.entry k j ≠ .empty := fun j lt => mt (isEmpty (lt.trans small)).mpr (lower j lt)
    constructor
    · rintro ⟨⟩; exact .inl ⟨small, empty, lowest⟩
    · rintro (⟨-, is, below⟩ | ⟨full, -⟩)
      · rcases Nat.lt_trichotomy m n with lt | rfl | gt
        · exact absurd empty (below m lt)
        · rfl
        · exact absurd is (lowest n gt)
      · exact absurd empty (full m small)
  | none =>
    have full : ∀ m, m < (s.pool k).entries.length → s.entry k m ≠ .empty := fun m small empty => by
      have no := List.findIdx?_eq_none_iff.mp first _ (List.getElem_mem small)
      exact absurd ((isEmpty small).mpr empty) (by rw [no]; decide)
    dsimp only
    rw [List.find?_eq_some_iff_append]
    constructor
    · rintro ⟨evict, older, newer, cut, kept⟩
      refine .inr ⟨full, (evictable_iff s k n).mp evict, older, newer, cut, fun m mem => ?_⟩
      rw [← evictable_iff, State.entry]
      simpa using kept m mem
    · rintro (⟨small, empty, -⟩ | ⟨-, evict, older, newer, cut, kept⟩)
      · exact absurd empty (full n small)
      · refine ⟨(evictable_iff s k n).mpr evict, older, newer, cut, fun m mem => ?_⟩
        have no := kept m mem
        rw [← evictable_iff, State.entry] at no
        simpa using no

/-- What a slot's fill asks for hangs on its FETCH mark alone, not on the fill it held (R86). -/
theorem asking_setSlot (i : SlotId) (gen : Gen) (f : Fill) (first count : Nat) (s : State) (x : FillSlot)
    (mark : x.onLine = (s.slot i).onLine) : asking i gen f first count (s.setSlot i x) = asking i gen f first count s := by
  unfold asking
  simp only [State.slot_setSlot, mark, BranchLink.setSlot_setSlot]

/-- A slot that takes up a fill asks for the whole record at its next generation (R84, R85). -/
theorem takeUp_eq_asking (i : SlotId) (w : WaitingFill) (s : State) : takeUp i w s =
    asking i ((s.slot i).gen + 1) { freshFill w.kind w.key w.entry with highest := w.highest } 0 w.kind.segments s := by
  simp only [takeUp, fetchDue, State.slot_setSlot, BranchLink.setSlot_setSlot]
  unfold asking
  split
  · next busy => rw [← busy]; rfl
  · rfl

theorem allocated_eq (c : CtxId) (k : RecordKind) (key : Key) (n : Nat) (s : State) :
    s.setPool k ((((s.pool k).setEntry n (.filling key [c])).touch n).leaveQueue c) = allocated c k key n s := by
  simp only [allocated, unqueued, State.touch, State.setEntry, State.pool_setPool, State.setPool_setPool]; rfl

section
variable {c : CtxId} {k : RecordKind} {key : Key} {s : State}

theorem lookup_valid {n : Nat} {copy : Copy} {o : Option CtxId} {ws : List CtxId}
    (found : (s.pool k).find key = some n) (e : s.entry k n = .valid copy o ws) :
    lookup c k key s = (unqueued c k (s.touch k n), some n) := by
  rw [State.entry] at e
  simp only [lookup, found, e, unqueued, State.touch, State.pool_setPool, State.setPool_setPool]; rfl

theorem lookup_filling {n : Nat} {ws : List CtxId} (found : (s.pool k).find key = some n)
    (e : s.entry k n = .filling key ws) : lookup c k key s =
      (unqueued c k (s.setEntry k n (.filling key (if c ∈ ws then ws else ws ++ [c]))), none) := by
  rw [State.entry] at e
  simp only [lookup, found, e, unqueued, State.setEntry, State.pool_setPool, State.setPool_setPool]; rfl

theorem lookup_allocates {n : Nat} (absent : (s.pool k).find key = none) (room : (s.pool k).room = some n) :
    lookup c k key s = (giveFill ⟨k, n, key, 0⟩ (allocated c k key n s), none) := by
  simp only [lookup, absent, room, allocated_eq]

theorem lookup_waits (absent : (s.pool k).find key = none) (full : (s.pool k).room = none) :
    lookup c k key s = (s.setPool k { s.pool k with
      queue := if c ∈ (s.pool k).queue then (s.pool k).queue else (s.pool k).queue ++ [c] }, none) := by
  simp only [lookup, absent, full, Pool.joinQueue]
  split <;> rfl

end

theorem giveFill_idle {i : SlotId} {w : WaitingFill} {s : State} (idle : idleSlot s = some i) : giveFill w s =
    asking i ((s.slot i).gen + 1) { freshFill w.kind w.key w.entry with highest := w.highest } 0 w.kind.segments s := by
  rw [giveFill, idle]; exact takeUp_eq_asking i w s

theorem giveFill_waits {w : WaitingFill} {s : State} (busy : idleSlot s = none) :
    giveFill w s = { s with fu := { s.fu with waiting := s.fu.waiting ++ [w] } } := by
  rw [giveFill, busy]

theorem touch_lru {s : State} {k : RecordKind} {n : Nat} (mem : n ∈ (s.pool k).lru) :
    ((s.touch k n).pool k).lru = (s.pool k).lru.erase n ++ [n] := by
  rw [State.touch, State.pool_setPool]; exact if_pos mem

/-- Settles O24: the treatments of R41, the checks of R43 in their order, acceptance, and the cases of a lookup. -/
theorem dispatchTreatsFrames : Obligations.DispatchTreatsFrames := by
  refine ⟨fun s i d kind tag payload e enrolled => ?_, fun s c k key => ⟨fun n holds only => ?_, fun absent => ?_,
    fun n mem => touch_lru mem, rfl⟩⟩
  · subst enrolled
    refine ⟨fun relayed => dispatch_relays (by rw [relayed]; rfl), fun served foreign => dispatch_relays ?_,
      fun served low high => ?_⟩
    · have other : isLocalKind kind = false := Bool.eq_false_iff.mpr fun is => by
        have := (isLocalKind_iff kind).mp is; omega
      rw [served]; simp only [treatment, other, Bool.false_eq_true, if_false]
    have own : isLocalKind kind = true := (isLocalKind_iff kind).mpr ⟨low, high⟩
    obtain ⟨adjudicated, relayed, offline⟩ := treatment_own own
    refine ⟨fun all => dispatch_relays (by rw [served, all, relayed]), fun all => dispatch_refusesOffline (by rw [served, all, offline]),
      fun kinds => ?_⟩
    obtain ⟨refused, taken⟩ := dispatch_adjudicates (tag := tag) (payload := payload) (by rw [served, kinds, adjudicated])
    refine ⟨fun unknown => refused .noDate (by rw [acceptance, if_pos unknown]), fun day service => refused .busy ?_,
      fun day service => ?_⟩
    · rw [acceptance, if_neg day, if_pos service]
    obtain ⟨bad, parsed⟩ := acceptance_checks (i := i) (d := d) (kind := kind) (tag := tag) (payload := payload) day service
    refine ⟨fun unread => refused _ (bad unread), fun req is => ?_⟩
    obtain ⟨two, same, fresh⟩ := parsed req is
    refine ⟨fun h => refused _ (two h), fun few h => refused _ (same few h), fun few h => ⟨fun full => ?_, fun c free => ?_⟩⟩
    · exact refused _ ((fresh few h).1 full)
    · rw [taken c req ((fresh few h).2 c free)]
      exact ⟨_, rfl, accept_outcome c i d tag req s⟩
  · have found := find_some holds only
    exact ⟨fun copy o ws e => lookup_valid found e, fun ws e => lookup_filling found e⟩
  · have missing := find_none absent
    refine ⟨fun n takes => ?_, fun full => lookup_waits missing ?_⟩
    · have room := (room_iff s k n).mpr takes
      refine ⟨fun i idle lowest => ?_, fun busy => ?_⟩
      · rw [lookup_allocates missing room, giveFill_idle (s := allocated c k key n s) (idleSlot_some idle lowest)]; rfl
      · rw [lookup_allocates missing room, giveFill_waits (s := allocated c k key n s) (idleSlot_none busy)]; rfl
    · exact Option.eq_none_iff_forall_ne_some.mpr fun n room => full n ((room_iff s k n).mp room)

end Sys2Proof.Transactions

namespace Sys2Proof.Transactions

open Sys2Proof Sys2Proof.Machine Sys2Proof.Safety Sys2Proof.KioskLanes

/-! ## AU takes the head of its list (R136) -/

theorem imageOf_read {c : CtxId} {x : Txn} {k : RecordKind} {s : State} {copy : Copy}
    (h : readCopy c x k s = some copy) : imageOf c x k s = copy.image := by
  rw [imageOf, h]

theorem takeDecision_head {f : CtxId → Txn → State → Option Decision} {s : State} {c : CtxId} {rest : List CtxId}
    {x : Txn} {d : Decision} (power : s.powered = true) (head : s.au.list = c :: rest) (busy : s.txn c = some x)
    (decides : f c x s = some d) : Host.Outcome.next (φ := Fault) (ρ := Refusal) (live (takeDecision f) s) =
      .next (applyDecision c x d { s with au := { s.au with list := rest } }) := by
  rw [live_powered power, takeDecision, head]
  dsimp only
  rw [busy]
  dsimp only
  rw [decides]

/-- The title a renewal needs, as the statements spell it (R48, R142). -/
theorem titleNeedOf_eq (item : Image) (p : Key) : (titleNeedOf item p).map freshNeed = titleNeed item p := by
  unfold titleNeedOf titleNeed
  by_cases h : loanPresent item = true ∧ borrower item = p ∧ itemTitle item ≠ 0
  · rw [if_pos h, if_pos (by simpa [and_assoc] using h)]; rfl
  · rw [if_neg h, if_neg (by simpa [and_assoc] using h)]; rfl

theorem titleNeedOf_eq_key (item : Image) (p : Key) : titleNeedOf item p = (titleNeed item p).map Need.key := by
  rw [← titleNeedOf_eq, Option.map_map]
  exact (congrFun Option.map_id (titleNeedOf item p)).symm

theorem check_eq (b : Bool) (code : ResultCode) :
    check b code = if b = true then .ok () else .error (.refuse code) := rfl

/-- Without a title need one of the first three checks fails (R142). -/
theorem renewItemChecks_fail {item : Image} {p : Key} (h : titleNeed item p = none) :
    ∃ e, renewItemChecks p item = .error e := by
  have fails : ¬ (loanPresent item = true ∧ borrower item = p ∧ itemTitle item ≠ 0) := fun all => by
    rw [titleNeed, if_pos all] at h; cases h
  unfold renewItemChecks
  by_cases loan : loanPresent item = true
  · by_cases own : borrower item = p
    · have zero : ¬ itemTitle item ≠ 0 := fun title => fails ⟨loan, own, title⟩
      exact ⟨.refuse .unknownTitle, by
        rw [check_eq, check_eq, check_eq, if_pos loan, if_pos (decide_eq_true own), if_neg (by simpa using zero)]; rfl⟩
    · exact ⟨.refuse .notYours, by rw [check_eq, check_eq, if_pos loan, if_neg (by simpa using own)]; rfl⟩
  · exact ⟨.refuse .notOnLoan, by rw [check_eq, if_neg loan]; rfl⟩

/-- A renewal without a title need is decided alike whatever the title image. -/
theorem decideRenew_noTitle {item : Image} {p : Key} (h : titleNeed item p = none) (r : RuleStore) (today : Nat)
    (patron title title' : Image) : decideRenew r today p patron title item = decideRenew r today p patron title' item := by
  obtain ⟨e, fails⟩ := renewItemChecks_fail h
  simp only [decideRenew, fails]

/-- AU decides the head of its list, by its kind (R120, R136, R137, R142). -/
theorem head_decided {s : State} {c : CtxId} {rest : List CtxId} {x : Txn} (power : s.powered = true)
    (head : s.au.list = c :: rest) (busy : s.txn c = some x) :
    let u : State := { s with au := { s.au with list := rest } }
    (∀ d, renewDecision c x s = some d → exec .renew s = .next (applyDecision c x d u)) ∧
    (∀ d, payDecision c x s = some d → exec .pay s = .next (applyDecision c x d u)) ∧
    (∀ d, accountDecision c x s = some d → exec .account s = .next (applyDecision c x d u)) ∧
    (∀ d, holdDecision c x s = some d → exec .hold s = .next (applyDecision c x d u)) ∧
    (∀ d, cancelDecision c x s = some d → exec .cancel s = .next (applyDecision c x d u)) ∧
    (∀ d, suspendDecision c x s = some d → exec .suspend s = .next (applyDecision c x d u)) ∧
    ∀ d, resumeDecision c x s = some d → exec .resume s = .next (applyDecision c x d u) :=
  ⟨fun _ => takeDecision_head power head busy, fun _ => takeDecision_head power head busy,
    fun _ => takeDecision_head power head busy, fun _ => takeDecision_head power head busy,
    fun _ => takeDecision_head power head busy, fun _ => takeDecision_head power head busy,
    fun _ => takeDecision_head power head busy⟩

/-! ## The next need to look up or to lock (R48-R50) -/

/-- The first kind with a value, in the order patron, title, item. -/
theorem findSome_order {α : Type} {f : RecordKind → Option α} {k : RecordKind} {a : α} (h : f k = some a)
    (first : ∀ j ∈ before k, f j = none) : RecordKind.order.findSome? f = some a := by
  cases k with
  | patron => simp only [RecordKind.order, List.findSome?_cons, h]
  | title => simp only [RecordKind.order, List.findSome?_cons, h, first .patron (by decide)]
  | item =>
    simp only [RecordKind.order, List.findSome?_cons, h, first .patron (by decide), first .title (by decide)]

theorem findSome_order_none {α : Type} {f : RecordKind → Option α} (h : ∀ k, f k = none) :
    RecordKind.order.findSome? f = none := by
  simp only [RecordKind.order, List.findSome?_cons, h, List.findSome?_nil]

/-- A kind's record that has still to be looked up (R49). -/
def missingAt (x : Txn) (k : RecordKind) : Option (RecordKind × Key) :=
  match x.need k with
  | some ⟨key, none, _⟩ => some (k, key)
  | _ => none

/-- A kind's record whose lock has still to be taken (R50). -/
def unlockedAt (x : Txn) (k : RecordKind) : Option (RecordKind × Key × Nat) :=
  match x.need k with
  | some ⟨key, some n, false⟩ => some (k, key, n)
  | _ => none

theorem missing_eq (x : Txn) : x.missing = RecordKind.order.findSome? (missingAt x) := rfl

theorem unlocked_eq (x : Txn) : x.unlocked = RecordKind.order.findSome? (unlockedAt x) := rfl

section
variable {x : Txn}

theorem missingAt_none {k : RecordKind} (h : Present x k) : missingAt x k = none := by
  unfold missingAt
  split
  · next key held need => exact absurd rfl (h _ need)
  · rfl

theorem unlockedAt_none {k : RecordKind} (h : Locked x k) : unlockedAt x k = none := by
  unfold unlockedAt
  split
  · next key n need => exact Bool.noConfusion (h _ need).2
  · rfl

theorem missing_some {k : RecordKind} {key : Key} {held : Bool} (need : x.need k = some ⟨key, none, held⟩)
    (present : ∀ j ∈ before k, Present x j) : x.missing = some (k, key) :=
  (missing_eq x).trans (findSome_order (by rw [missingAt, need]) fun j mem => missingAt_none (present j mem))

theorem missing_none (present : ∀ k, Present x k) : x.missing = none :=
  (missing_eq x).trans (findSome_order_none fun k => missingAt_none (present k))

theorem unlocked_some {k : RecordKind} {key : Key} {n : Nat} (need : x.need k = some ⟨key, some n, false⟩)
    (locked : ∀ j ∈ before k, Locked x j) : x.unlocked = some (k, key, n) :=
  (unlocked_eq x).trans (findSome_order (by rw [unlockedAt, need]) fun j mem => unlockedAt_none (locked j mem))

theorem unlocked_none (locked : ∀ k, Locked x k) : x.unlocked = none :=
  (unlocked_eq x).trans (findSome_order_none fun k => unlockedAt_none (locked k))

theorem settlesNow_none (h : ¬ (x.titleSettled = false ∧ ∃ m, x.item = some m ∧ m.ref ≠ none)) : x.settlesNow = none := by
  unfold Txn.settlesNow
  split
  · next key n held open_ e => exact absurd ⟨open_, _, e, nofun⟩ h
  · rfl

theorem found_eq {k : RecordKind} {m : Need} (need : x.need k = some m) (n : Nat) (held : Bool) :
    x.found k n held = x.setNeed k (some ⟨m.key, some n, held⟩) := by
  rw [Txn.found, need]; rfl

theorem lose_eq {k : RecordKind} {m : Need} (need : x.need k = some m) :
    x.lose k = x.setNeed k (some ⟨m.key, none, false⟩) := by
  rw [Txn.lose, need]; rfl

theorem isAccount_iff : x.request.isAccount = true ↔ ∃ p, x.request = .account p := by
  cases x.request <;> simp [Request.isAccount]

theorem isRenew_false (h : ∀ p i, x.request ≠ .renew p i) : x.request.isRenew = false := by
  cases e : x.request with
  | renew p i => exact absurd e (h p i)
  | _ => rfl

end

/-! ## A context in GATHER goes on (R48-R51, R60) -/

section
variable {s : State} {c : CtxId} {x : Txn} (busy : s.txn c = some x) (gather : x.state = .gather)
include busy gather

theorem resume_settles {key : Key} {n : Nat} {held : Bool} {copy : Copy} (open_ : x.titleSettled = false)
    (item : x.item = some ⟨key, some n, held⟩) (good : Good s c .item key n copy) : resumeCtx c s =
      (s.setTxn c (some { x with title := titleNeed copy.image x.request.patronKey, titleSettled := true }),
        [.resume c]) := by
  have settles : x.settlesNow = some (key, n) := by simp only [Txn.settlesNow, open_, item]
  simp only [resumeCtx, busy, gather, ne_eq, not_true_eq_false, if_false, settles, goodCopy_iff.mpr good,
    Txn.settleTitle, titleNeedOf_eq]

variable (settled : x.settlesNow = none)
include settled

theorem resume_lookup {k : RecordKind} {key : Key} (missing : x.missing = some (k, key)) :
    ((lookup c k key s).2 = none → resumeCtx c s = ((lookup c k key s).1, [])) ∧
      ∀ n, (lookup c k key s).2 = some n →
        resumeCtx c s = ((lookup c k key s).1.setTxn c (some (x.found k n false)), [.resume c]) := by
  have step := resumeCtx.eq_def c s
  simp only [busy, gather, ne_eq, not_true_eq_false, if_false, settled, missing] at step
  rcases found : lookup c k key s with ⟨s', _ | n⟩
  · rw [found] at step
    exact ⟨fun _ => step, nofun⟩
  · rw [found] at step
    exact ⟨nofun, by rintro _ ⟨⟩; exact step⟩

variable (present : x.missing = none)
include present

theorem resume_copies (account : x.request.isAccount = true) : resumeCtx c s = copyPatron c x s := by
  simp only [resumeCtx, busy, gather, ne_eq, not_true_eq_false, if_false, settled, present, account, if_true]

variable (other : x.request.isAccount = false)
include other

theorem resume_locks {k : RecordKind} {key : Key} {n : Nat} (next : x.unlocked = some (k, key, n)) :
    resumeCtx c s = requestLock c x k key n s := by
  simp only [resumeCtx, busy, gather, ne_eq, not_true_eq_false, if_false, settled, present, other, Bool.false_eq_true, next]

theorem resume_locked (locked : x.unlocked = none) : resumeCtx c s = allLocked c x s := by
  simp only [resumeCtx, busy, gather, ne_eq, not_true_eq_false, if_false, settled, present, other, Bool.false_eq_true, locked]

end

/-- Entering DECIDE: the day sampled, and a place on AU's list (R51, R136). -/
theorem decides_enterDecide (c : CtxId) (x : Txn) (s : State) : Decides c x s (enterDecide c x s) where
  txn := State.txn_setTxn s c _
  list := rfl
  entries _ _ := rfl
  others _ other := State.txn_setTxn_ne s _ other.symm

section
variable {s : State} {c : CtxId} {x : Txn} {k : RecordKind} {key : Key} {n : Nat} {copy : Copy}

theorem requestLock_granted {ws : List CtxId} (same : copy.key = key) (e : s.entry k n = .valid copy none ws) :
    requestLock c x k key n s =
      (((s.setTxn c (some (x.found k n true))).setEntry k n (.valid copy (some c) ws)).touch k n, [.resume c]) := by
  simp only [requestLock, e, same, ne_eq, not_true_eq_false, if_false]

theorem requestLock_waits {o : CtxId} {ws : List CtxId} (same : copy.key = key) (other : o ≠ c)
    (e : s.entry k n = .valid copy (some o) ws) : requestLock c x k key n s =
      (s.setEntry k n (.valid copy (some o) (if c ∈ ws then ws else ws ++ [c])), []) := by
  simp only [requestLock, e, same, ne_eq, not_true_eq_false, if_false, other, Entry.addWaiter]

theorem requestLock_lost (bad : ∀ copy, ¬ Good s c k key n copy) :
    requestLock c x k key n s = (s.setTxn c (some (x.lose k)), [.resume c]) := by
  unfold requestLock
  dsimp only
  split
  · next copy o ws e =>
    exact if_pos fun same => bad copy (.inl ⟨same, o, ws, e⟩)
  · next copy tainted o e =>
    exact if_neg fun own => bad copy (.inr ⟨tainted, by rw [e, own]⟩)
  · rfl
  · rfl

theorem copyPatron_decides {held : Bool} (need : x.patron = some ⟨key, some n, held⟩) (good : Good s c .patron key n copy) :
    copyPatron c x s = (enterDecide c { x with patronCopy := some copy.image } (s.touch .patron n), []) := by
  simp only [copyPatron, need, goodCopy_iff.mpr good]

/-- A RENEW with every lock held reads its item once more (R50). -/
theorem allLocked_renew {p i : Key} (renew : x.request = .renew p i) (item : x.item = some ⟨key, some n, true⟩)
    (good : Good s c .item key n copy) : allLocked c x s =
      if (titleNeed copy.image p).map Need.key = x.title.map Need.key then (enterDecide c x s, [])
      else resettle c x copy.image s := by
  simp only [allLocked, renew, Request.isRenew, item, goodCopy_iff.mpr good, Request.patronKey, titleNeedOf_eq_key]

theorem allLocked_other (h : x.request.isRenew = false) : allLocked c x s = (enterDecide c x s, []) := by
  simp only [allLocked, h]

end

/-! ## A RENEW settles its title need again (R50) -/

/-- What a RENEW that settles its title need again lets go of in each pool. -/
def resettleAt (c : CtxId) (x : Txn) (k : RecordKind) : State → State × List Task :=
  if k = .title then releaseNeed c x k else releaseLock c x k

section
variable {s : State} {c : CtxId} {x : Txn} {item : Image}

theorem resettle_eq : resettle c x item s =
    ((eachKind (resettleAt c x) (s.setTxn c (some (x.resettled c item s)))).1,
      (eachKind (resettleAt c x) (s.setTxn c (some (x.resettled c item s)))).2 ++ [.resume c]) := rfl

theorem sameKind_resettleAt {k l : RecordKind} (h : k ≠ l) (s : State) : SameKind l s (resettleAt c x k s).1 := by
  unfold resettleAt; split
  · exact sameKind_releaseNeed c x h s
  · exact sameKind_releaseLock c x h s

theorem ownRelease_resettleAt {s : State} (h : WaitsForNone c x s) (k : RecordKind) :
    OwnRelease c x s (resettleAt c x k s).1 := by
  unfold resettleAt; split
  · exact ownRelease_releaseNeed h k
  · exact ownRelease_releaseLock h k

/-- No lock of the context's is left to it. -/
theorem resettleAt_unlocks {k : RecordKind} {key : Key} {n : Nat} (need : x.need k = some ⟨key, some n, true⟩)
    {s : State} {copy : Copy} {ws : List CtxId} (e : s.entry k n = .valid copy (some c) ws) (off : c ∉ ws)
    (copy' : Copy) (ws' : List CtxId) : (resettleAt c x k s).1.entry k n ≠ .valid copy' (some c) ws' := by
  have released : resettleAt c x k s = releaseEntry c k n s := by
    unfold resettleAt; split
    · exact releaseNeed_held c x k need s
    · exact releaseLock_held c x k need fun copy tainted transient => by rw [e] at transient; cases transient
  rw [released]
  intro held
  exact releaseEntry_unheld c k n s (by rw [e]; exact off) (by rw [held]; rfl)

/-- The RENEW goes on in GATHER with its regather count and its place unchanged and no lock held (R50). -/
theorem resettle_outcome (busy : s.txn c = some x) (gather : x.state = .gather)
    (off : ∀ k key n copy o ws, x.need k = some ⟨key, some n, true⟩ → s.entry k n = .valid copy o ws → c ∉ ws) :
    let r := resettle c x item s
    .resume c ∈ r.2 ∧ cardOf r.1 c = some (card x) ∧ r.1.dct.counters = s.dct.counters ∧
      (∃ y, r.1.txn c = some y ∧ y.state = .gather ∧ y.title = titleNeed item x.request.patronKey) ∧
      ∀ k key n copy ws, x.need k = some ⟨key, some n, true⟩ → s.entry k n = .valid copy (some c) ws →
        ∀ copy' ws', r.1.entry k n ≠ .valid copy' (some c) ws' := by
  have follows := hushed_resettle c x item s busy
  have waits : WaitsForNone c x (s.setTxn c (some (x.resettled c item s))) := fun k key n need w => by
    rw [show (s.setTxn c _).entry k n = s.entry k n from rfl] at w
    cases e : s.entry k n with
    | valid copy o ws => rw [e] at w; exact off k key n copy o ws need e w
    | empty => rw [e] at w; cases w
    | filling key ws => rw [e] at w; cases w
    | transient copy tainted o => rw [e] at w; cases w
  have own := ownRelease_eachKind waits fun {s} (h : WaitsForNone c x s) k => ownRelease_resettleAt h k
  refine ⟨List.mem_append_right _ (List.mem_singleton.mpr rfl), ?_, follows.counters, ⟨x.resettled c item s, ?_, gather, ?_⟩,
    fun k key n copy ws need e copy' ws' => ?_⟩
  · rw [follows.cards c, cardOf, busy]; rfl
  · rw [resettle_eq]; exact own.txn.trans (State.txn_setTxn s c _)
  · exact titleNeedOf_eq item x.request.patronKey
  · obtain ⟨u, before, after, -⟩ := eachKind_at sameKind_resettleAt k (s.setTxn c (some (x.resettled c item s)))
    rw [resettle_eq]
    dsimp only
    rw [after.entry n]
    exact resettleAt_unlocks need ((before.entry n).trans e) (off k key n copy (some c) ws need e) copy' ws'

end

/-- Settles O36: the head's decision by its kind, and each step of a context on its way to AU's list. -/
theorem decisionsTakeTheHeadContext : Obligations.DecisionsTakeTheHeadContext := by
  refine ⟨fun s c rest x power head busy => ?_, fun s c x busy gather => ?_⟩
  · obtain ⟨renew, pay, account, hold, cancel, suspend, resume⟩ := head_decided power head busy
    refine ⟨fun pc tc ic p i hp ht hi is => renew _ ?_, fun pc ic p i hp ht hi is noNeed title => renew _ ?_,
      fun pc p amount ref hp is => pay _ ?_, fun image p copied is => account _ ?_, fun pc tc p t b hp ht is => hold _ ?_,
      fun pc tc p t hp ht is => cancel _ ?_, fun tc p t d ht is => suspend _ ?_, fun tc p t ht is => resume _ ?_⟩
    · simp only [renewDecision, is, imageOf_read hp, imageOf_read ht, imageOf_read hi]; rfl
    · simp only [renewDecision, is, imageOf_read hp, imageOf_read hi]
      exact congrArg some (decideRenew_noTitle noNeed _ _ _ _ _)
    · simp only [payDecision, is, imageOf_read hp]
    · simp only [accountDecision, is, copied]; rfl
    · simp only [holdDecision, is, imageOf_read hp, imageOf_read ht]; rfl
    · simp only [cancelDecision, is, imageOf_read hp, imageOf_read ht]
    · simp only [suspendDecision, is, imageOf_read ht]; rfl
    · simp only [resumeDecision, is, imageOf_read ht]
  have notAccount : (¬ ∃ p, x.request = .account p) → x.request.isAccount = false := fun h =>
    Bool.eq_false_iff.mpr fun is => h (isAccount_iff.mp is)
  have presentOf : (∀ k, Locked x k) → ∀ k, Present x k := fun locked k m need => (locked k m need).1
  refine ⟨fun key n held copy open_ item good => resume_settles busy gather open_ item good,
    fun k key held settled need present => ?_, fun key n held copy settled present account need good => ?_,
    fun k key n settled present other need locked => ?_, fun other locked notRenew settled => ?_,
    fun key n copy p i renew locked settled item good => ?_⟩
  · have step := resume_lookup busy gather (settlesNow_none settled) (missing_some need present)
    simpa only [found_eq need] using step
  · rw [resume_copies busy gather (settlesNow_none settled) (missing_none present) (isAccount_iff.mpr account),
      copyPatron_decides need good]
    obtain ⟨txn, list, entries, others⟩ :=
      decides_enterDecide c { x with patronCopy := some copy.image } (s.touch .patron n)
    exact ⟨rfl, ⟨txn, list, fun k m => (entries k m).trans (State.entry_touch s _ k n m), others⟩, rfl⟩
  · rw [resume_locks busy gather (settlesNow_none settled) (missing_none present) (notAccount other)
      (unlocked_some need locked)]
    refine ⟨fun copy ws same e => ?_, fun copy o ws same held e => requestLock_waits same held e, fun bad => ?_⟩
    · rw [requestLock_granted same e, found_eq need]
    · rw [requestLock_lost bad, lose_eq need]
  · rw [resume_locked busy gather (settlesNow_none settled) (missing_none (presentOf locked)) (notAccount other)
      (unlocked_none locked), allLocked_other (isRenew_false notRenew)]
    exact ⟨rfl, decides_enterDecide c x s⟩
  · have other : x.request.isAccount = false := by rw [renew]; rfl
    have closed : x.settlesNow = none := settlesNow_none fun h => by rw [settled] at h; exact Bool.noConfusion h.1
    rw [resume_locked busy gather closed (missing_none (presentOf locked)) other (unlocked_none locked),
      allLocked_renew renew item good]
    refine ⟨fun same => ?_, fun changed off => ?_⟩
    · rw [if_pos same]; exact ⟨rfl, decides_enterDecide c x s⟩
    · rw [if_neg changed]
      have outcome := resettle_outcome (item := copy.image) busy gather off
      rwa [renew] at outcome

end Sys2Proof.Transactions

namespace Sys2Proof.Transactions

open Sys2Proof Sys2Proof.Machine Sys2Proof.Safety Sys2Proof.KioskLanes

/-! ## Tasks one by one (R53, R67) -/

theorem runTasks_nil (fuel : Nat) (s : State) : runTasks fuel [] s = s := by cases fuel <;> rfl

theorem runTasks_cons (fuel : Nat) (t : Task) (ts : List Task) (s : State) :
    runTasks (fuel + 1) (t :: ts) s = runTasks fuel ((doTask t s).2 ++ ts) (doTask t s).1 := rfl

theorem taskBound_succ : taskBound = 65535 + 1 := rfl

/-- With no one in the allocation queue freed room sets nothing off. -/
theorem runTasks_retry {k : RecordKind} {s : State} (queue : (s.pool k).queue = []) :
    runTasks taskBound [.retry k] s = s := by
  rw [taskBound_succ, runTasks_cons, doTask, queue]
  exact runTasks_nil _ s

theorem offerRoom_nobody {k : RecordKind} {s : State} (queue : (s.pool k).queue = []) : offerRoom k s = s :=
  runTasks_retry queue

theorem settleQuiesce_busy {s : State} (service : s.um.service ≠ .quiescing) : settleQuiesce s = s :=
  if_neg fun both => service both.1

theorem settle_nothing {s : State} (service : s.um.service ≠ .quiescing) : settle (s, []) = s := by
  rw [settle, runTasks_nil, settleQuiesce_busy service]

/-- One regather, with all that it sets off, is itself one of the tasks that log entry 16 bounds. -/
theorem settle_regather (c : CtxId) (s : State) : settle (s, [.regather c]) =
    settleQuiesce (runTasks 65535 (regather c s).2 (regather c s).1) := by
  rw [settle, taskBound_succ, runTasks_cons, List.append_nil]; rfl

theorem hushed_settled_regather (c : CtxId) (s : State) : Hushed (regather c s).1 (settle (s, [.regather c])) := by
  rw [settle_regather]
  exact (hushed_runTasks _ _ (quiet_regather c s) _).trans (hushed_settleQuiesce _)

theorem steady_settled_regather (c : CtxId) (s : State) :
    (settle (s, [.regather c])).steady = (regather c s).1.steady := by
  rw [settle_regather, steady_settleQuiesce]
  exact steady_of_outside (outside_runTasks _ _ _)

/-- A regather as a context's card shows it. -/
theorem regather_running_card {c : CtxId} {x y : Txn} {s t : State} (h : s.txn c = some y)
    (follows : Hushed (regather c s).1 t) (same : card y = card x) (kept : x.abandoned = false) (below : x.regathers < 2)
    (running : x.deadline = .running) : cardOf t c =
      some { card x with regathers := x.regathers + 1, outstanding := none, committing := false } := by
  have abandoned : y.abandoned = x.abandoned := congrArg Card.abandoned same
  have regathers : y.regathers = x.regathers := congrArg Card.regathers same
  have deadline : y.deadline = x.deadline := congrArg Card.deadline same
  have own := (regather_running_outcome h follows (abandoned.trans kept) (regathers ▸ below) (deadline.trans running)).1
  rw [own, same, regathers]

/-! ## A slot that is finished with (R85, R96) -/

/-- A FETCH that falls due moves the slots and the transmitter alone. -/
theorem fetchDue_moves (i : SlotId) (a b : Nat) (s : State) :
    ∃ fu bli, fetchDue i a b s = { s with fu := fu, bli := bli } := by
  unfold fetchDue; dsimp only; repeat' split
  all_goals exact ⟨_, _, rfl⟩

theorem finishSlot_moves (i : SlotId) (s : State) : ∃ fu bli, finishSlot i s = { s with fu := fu, bli := bli } := by
  unfold finishSlot; dsimp only; split
  · exact ⟨_, _, rfl⟩
  · obtain ⟨fu, bli, moved⟩ := fetchDue_moves i 0 _ _
    exact ⟨fu, bli, moved⟩

theorem finishSlot_idle {i : SlotId} {s : State} (waiting : s.fu.waiting = []) :
    finishSlot i s = s.setSlot i { s.slot i with fill := none } := by
  simp only [finishSlot, State.setSlot_waiting, waiting]

/-- The oldest fill that waits is taken up at the slot's next generation (R85, R96). -/
theorem finishSlot_takes {i : SlotId} {s : State} {w : WaitingFill} {ws : List WaitingFill}
    (waiting : s.fu.waiting = w :: ws) : finishSlot i s =
      asking i ((s.slot i).gen + 1) { freshFill w.kind w.key w.entry with highest := w.highest } 0 w.kind.segments
        { s with fu := { s.fu with waiting := ws } } := by
  simp only [finishSlot, State.setSlot_waiting, waiting]
  rw [takeUp_eq_asking]
  have gen : (({ s.setSlot i { s.slot i with fill := none } with
      fu := { (s.setSlot i { s.slot i with fill := none }).fu with waiting := ws } } : State).slot i).gen =
      (s.slot i).gen := (congrArg FillSlot.gen (State.slot_setSlot s i { s.slot i with fill := none }) :)
  rw [gen]
  exact asking_setSlot i _ _ 0 _ { s with fu := { s.fu with waiting := ws } } { s.slot i with fill := none } rfl

/-! ## The completing SEGMENT (R88, R93) -/

theorem exec_segment {s : State} (h : Listening s) (tag : Tag) (kind : Octet) (key : Key) (version : Version)
    (index flags : Octet) {data : List Octet} (size : data.length = 32) :
    exec (.segment tag kind key version index flags data) s =
      .next (takeSegment tag kind key version index flags data (counted s)) := by
  refine congrArg Host.Outcome.next ?_
  have length : (kind :: beOctets 4 key.toNat ++ beOctets 4 version.toNat ++ index :: flags :: data).length = 43 := by
    simp only [List.length_append, List.length_cons, beOctets_length, size]
  rw [live_powered h.1]
  refine arrive_listening _ _ s h rfl (by rw [length]; decide) ?_
  rw [length]; rfl

/-- A tag that names a slot at its generation is live for it (R84). -/
theorem liveSlot_some {tag : Tag} {i : SlotId} {s : State} {f : Fill} (slot : tag.toNat / 4096 = i.val)
    (gen : (s.slot i).gen.toNat = tag.toNat % 4096) (fill : (s.slot i).fill = some f) : liveSlot tag s = some (i, f) := by
  have small : tagSlot tag < 4 := lt_of_eq_of_lt slot i.isLt
  have named : (⟨tagSlot tag, small⟩ : SlotId) = i := Fin.ext slot
  have live : (s.slot i).gen = tagGen tag := by
    rw [tagGen, ← gen, BitVec.ofNat_toNat, BitVec.setWidth_eq]
  simp only [liveSlot, small, dif_pos, named, fill, live, if_true]

/-- The last missing segment makes the fill full (R89). -/
theorem full_of_last {received : List (Option (List Octet))} {index : Nat} (data : List Octet)
    (others : ∀ j, j < received.length → j ≠ index → received.getD j none ≠ none) :
    (received.set index (some data)).all Option.isSome = true := by
  refine List.all_eq_true.mpr fun o mem => ?_
  obtain ⟨j, small, rfl⟩ := List.mem_iff_getElem.mp mem
  rw [List.length_set] at small
  rw [List.getElem_set]
  split
  · rfl
  · next other =>
    have here := others j small (Ne.symm other)
    rw [List.getD_eq_getElem _ _ small] at here
    exact Option.isSome_iff_ne_none.mpr here

section
variable {tag : Tag} {version : Version} {index flags : Octet} {data : List Octet} {i : SlotId} {f : Fill} {s : State}

theorem takeSegment_completes (slot : tag.toNat / 4096 = i.val) (gen : (s.slot i).gen.toNat = tag.toNat % 4096)
    (fill : (s.slot i).fill = some f) (requested : f.phase = .requested) (inside : index.toNat < f.kind.segments)
    (length : f.received.length = f.kind.segments) (new : f.received.getD index.toNat none = none)
    (others : ∀ j, j < f.kind.segments → j ≠ index.toNat → f.received.getD j none ≠ none)
    (same : f.version = none ∨ f.version = some version) :
    let f' := { f with received := f.received.set index.toNat (some data), version := some version }
    takeSegment tag f.kind.code f.key version index flags data s =
      settle (completeFill i f' version (flags.getLsbD 0) (withFill s i f')) := by
  have tests : ¬ (f.phase ≠ .requested ∨ f.kind.code ≠ f.kind.code ∨ f.key ≠ f.key ∨ f.kind.segments ≤ index.toNat) := by
    simp only [requested, ne_eq, not_true_eq_false, false_or]; omega
  have versions : ¬ f.version.any (· ≠ version) = true := by
    rcases same with same | same <;> simp [same]
  have full := full_of_last (received := f.received) (index := index.toNat) data (by rw [length]; exact others)
  simp only [takeSegment, liveSlot_some slot gen fill, if_neg tests, if_neg versions, new, Option.isSome_none,
    Bool.false_eq_true, if_false, Fill.full, full, if_true]
  rfl

end

/-! ## What a completed fill installs (R93-R95) -/

/-- The record as a VALID entry, most recent (R69, R93). -/
def installed (f : Fill) (version : Version) (s : State) : State :=
  (s.setEntry f.kind f.entry (.valid ⟨f.key, version, f.image, none⟩ none [])).touch f.kind f.entry

/-- The record as a TRANSIENT entry of a waiter's own, most recent (R69, R93). -/
def handed (f : Fill) (version : Version) (tainted : Bool) (w : CtxId) (s : State) : State :=
  (s.setEntry f.kind f.entry (.transient ⟨f.key, version, f.image, none⟩ tainted w)).touch f.kind f.entry

section
variable {i : SlotId} {f : Fill} {version : Version} {keep : Bool} {s : State}

theorem fillWaiters_filling {k : RecordKind} {n : Nat} {key : Key} {ws : List CtxId} (e : s.entry k n = .filling key ws) :
    fillWaiters k n s = ws := by
  simp only [fillWaiters, e]

theorem keeps_iff : (keep && !decide (version.toNat < f.highest.toNat)) = true ↔
    keep = true ∧ f.highest.toNat ≤ version.toNat := by
  simp

theorem keeps_false (h : keep = false ∨ version.toNat < f.highest.toNat) :
    (keep && !decide (version.toNat < f.highest.toNat)) = false := by
  rcases h with h | h <;> simp [h]

theorem completeFill_keeps_alone (alone : fillWaiters f.kind f.entry s = []) (kept : keep = true)
    (clean : f.highest.toNat ≤ version.toNat) :
    completeFill i f version keep s = (finishSlot i (offerRoom f.kind (installed f version s)), []) := by
  simp only [completeFill, alone, keeps_iff.mpr ⟨kept, clean⟩, installed]

theorem completeFill_drops_alone (alone : fillWaiters f.kind f.entry s = [])
    (drop : keep = false ∨ version.toNat < f.highest.toNat) :
    completeFill i f version keep s = (finishSlot i (offerRoom f.kind (s.setEntry f.kind f.entry .empty)), []) := by
  simp only [completeFill, alone, keeps_false drop]

theorem completeFill_keeps {w : CtxId} {rest : List CtxId} (waiters : fillWaiters f.kind f.entry s = w :: rest)
    (kept : keep = true) (clean : f.highest.toNat ≤ version.toNat) : completeFill i f version keep s =
      (finishSlot i ((w :: rest).foldl (fun s w => s.mapTxn w (·.found f.kind f.entry false)) (installed f version s)),
        (w :: rest).map .resume ++ [.retry f.kind]) := by
  simp only [completeFill, waiters, keeps_iff.mpr ⟨kept, clean⟩, installed]

theorem completeFill_hands {w : CtxId} {rest : List CtxId} (waiters : fillWaiters f.kind f.entry s = w :: rest)
    (drop : keep = false ∨ version.toNat < f.highest.toNat) : completeFill i f version keep s =
      (finishSlot i ((handed f version (decide (version.toNat < f.highest.toNat)) w s).mapTxn w
          (·.found f.kind f.entry true)),
        if version.toNat < f.highest.toNat then rest.map .resume ++ [.regather w] else .resume w :: rest.map .resume) := by
  simp only [completeFill, waiters, keeps_false drop, handed, decide_eq_true_eq]

theorem installed_entry (small : f.entry < (s.pool f.kind).entries.length) :
    (installed f version s).entry f.kind f.entry = .valid ⟨f.key, version, f.image, none⟩ none [] :=
  (State.entry_touch _ _ _ _ _).trans (State.entry_setEntry s _ _ _ small)

theorem handed_entry {tainted : Bool} {w : CtxId} (small : f.entry < (s.pool f.kind).entries.length) :
    (handed f version tainted w s).entry f.kind f.entry = .transient ⟨f.key, version, f.image, none⟩ tainted w :=
  (State.entry_touch _ _ _ _ _).trans (State.entry_setEntry s _ _ _ small)

/-- An entry written and touched is most recent, the others keeping their order (R69). -/
theorem written_lru {k : RecordKind} {n : Nat} (e : Entry) (mem : n ∈ (s.pool k).lru) :
    (((s.setEntry k n e).touch k n).pool k).lru = (s.pool k).lru.erase n ++ [n] := by
  have same : ((s.setEntry k n e).pool k).lru = (s.pool k).lru := by rw [State.setEntry, State.pool_setPool]; rfl
  rw [touch_lru (by rw [same]; exact mem), same]

end

/-! ## What the waiters of a completed fill are told (R49, R94) -/

/-- A need whose record has been found. -/
def told (n : Nat) (own : Bool) (m : Need) : Need := ⟨m.key, some n, own⟩

theorem needOf_found (k : RecordKind) (n : Nat) (own : Bool) (s : State) (w : CtxId) :
    needOf k (s.mapTxn w (·.found k n own)) w = (needOf k s w).map (Option.map (told n own)) := by
  rw [needOf, State.txn_mapTxn, needOf, Option.map_map, Option.map_map]
  exact congrArg (Option.map · (s.txn w)) (funext fun x => need_setNeed x k _)

/-- Told more than once or once is the same. -/
theorem needOf_foldl_found (k : RecordKind) (n : Nat) (own : Bool) (ws : List CtxId) (s : State) {w : CtxId} (mem : w ∈ ws) :
    needOf k (ws.foldl (fun s w => s.mapTxn w (·.found k n own)) s) w = (needOf k s w).map (Option.map (told n own)) := by
  induction ws generalizing s with
  | nil => cases mem
  | cons v ws ih =>
    rw [List.foldl_cons]
    by_cases later : w ∈ ws
    · rw [ih _ later]
      by_cases same : v = w
      · subst same
        rw [needOf_found, Option.map_map, Option.map_comp_map]; rfl
      · rw [needOf, State.txn_mapTxn_ne s _ same, needOf]
    · obtain rfl : w = v := (List.mem_cons.mp mem).resolve_right later
      rw [needOf, foldl_mapTxn_txn _ ws _ w later]
      exact needOf_found k n own s w

/-- A context whose need is as told. -/
theorem present_of_needOf {k : RecordKind} {n : Nat} {own : Bool} {s t : State} {w : CtxId}
    (h : needOf k t w = (needOf k s w).map (Option.map (told n own))) {x : Txn} (busy : s.txn w = some x) :
    ∃ y, t.txn w = some y ∧ y.need k = (x.need k).map fun m => ⟨m.key, some n, own⟩ := by
  rw [needOf, needOf, busy] at h
  exact Option.map_eq_some_iff.mp h

/-! ## Completed fills, with and without waiters (R93-R96) -/

theorem finishSlot_pool (i : SlotId) (s : State) (k : RecordKind) : (finishSlot i s).pool k = s.pool k := by
  obtain ⟨fu, bli, moved⟩ := finishSlot_moves i s
  rw [moved]; rfl

theorem finishSlot_entry (i : SlotId) (s : State) (k : RecordKind) (n : Nat) :
    (finishSlot i s).entry k n = s.entry k n := congrArg (·.entry n) (finishSlot_pool i s k)

theorem finishSlot_txn (i : SlotId) (s : State) (c : CtxId) : (finishSlot i s).txn c = s.txn c := by
  obtain ⟨fu, bli, moved⟩ := finishSlot_moves i s
  rw [moved]; rfl

theorem foldl_mapTxn_fu (f : Txn → Txn) (ws : List CtxId) (s : State) :
    (ws.foldl (fun s w => s.mapTxn w f) s).fu = s.fu := by
  induction ws generalizing s with
  | nil => rfl
  | cons w ws ih => exact ih _

section
variable {i : SlotId} {f : Fill} {version : Version} {keep : Bool} {s : State}

/-- Nobody waits for the fill, for room or for a slot: the slot is IDLE and nothing further follows. -/
theorem settle_finished {u : State} (queue : (s.pool f.kind).queue = []) (waiting : s.fu.waiting = [])
    (service : s.um.service ≠ .quiescing) (pool : (u.pool f.kind).queue = (s.pool f.kind).queue) (fu : u.fu = s.fu)
    (um : u.um = s.um) : settle (finishSlot i (offerRoom f.kind (withFill u i f)), []) =
      u.setSlot i { s.slot i with fill := none } := by
  have slot : u.slot i = s.slot i := by rw [State.slot, State.slot, fu]
  rw [offerRoom_nobody (s := withFill u i f) (pool.trans queue),
    finishSlot_idle (s := withFill u i f) ((congrArg FillUnit.waiting fu).trans waiting), settle_nothing]
  · rw [withFill, State.slot_setSlot, BranchLink.setSlot_setSlot, slot]
  · exact fun quiescing => service ((congrArg Um.service um).symm.trans quiescing)

section
variable (alone : s.entry f.kind f.entry = .filling f.key []) (queue : (s.pool f.kind).queue = [])
  (waiting : s.fu.waiting = []) (service : s.um.service ≠ .quiescing)
include alone queue waiting service

theorem settle_keeps_alone (kept : keep = true) (clean : f.highest.toNat ≤ version.toNat) :
    settle (completeFill i f version keep (withFill s i f)) =
      (installed f version s).setSlot i { s.slot i with fill := none } := by
  rw [completeFill_keeps_alone (fillWaiters_filling (s := withFill s i f) alone) kept clean]
  refine settle_finished (u := installed f version s) queue waiting service ?_ rfl rfl
  rw [installed, touch_queue, setEntry_queue]

theorem settle_drops_alone (drop : keep = false ∨ version.toNat < f.highest.toNat) :
    settle (completeFill i f version keep (withFill s i f)) =
      (s.setEntry f.kind f.entry .empty).setSlot i { s.slot i with fill := none } := by
  rw [completeFill_drops_alone (fillWaiters_filling (s := withFill s i f) alone) drop]
  exact settle_finished (u := s.setEntry f.kind f.entry .empty) queue waiting service (setEntry_queue s _ _ _ _) rfl rfl

end

section
variable {w : CtxId} {rest : List CtxId} (waiters : s.entry f.kind f.entry = .filling f.key (w :: rest))
include waiters

/-- The slot is finished with when the waiters have been told and before they go on; the entry is most recent. -/
theorem completeFill_finishes : ∃ u : State, u.fu = s.fu ∧ (completeFill i f version keep s).1 = finishSlot i u ∧
    (f.entry ∈ (s.pool f.kind).lru → (u.pool f.kind).lru = (s.pool f.kind).lru.erase f.entry ++ [f.entry]) := by
  have told := fillWaiters_filling waiters
  by_cases stays : keep = true ∧ f.highest.toNat ≤ version.toNat
  · rw [completeFill_keeps told stays.1 stays.2]
    refine ⟨_, ?_, rfl, fun mem => ?_⟩
    · exact foldl_mapTxn_fu _ _ _
    · rw [State.pool, foldl_mapTxn_rc]
      exact written_lru _ mem
  · have drop : keep = false ∨ version.toNat < f.highest.toNat := by
      rw [not_and_or, Bool.not_eq_true, Nat.not_le] at stays; exact stays
    rw [completeFill_hands told drop]
    refine ⟨_, ?_, rfl, fun mem => ?_⟩
    · rfl
    · exact written_lru _ mem

theorem completeFill_valid (kept : keep = true) (clean : f.highest.toNat ≤ version.toNat) :
    let r := completeFill i f version keep s
    r.1.entry f.kind f.entry = .valid ⟨f.key, version, f.image, none⟩ none [] ∧
      (∀ v ∈ w :: rest, ∀ x, s.txn v = some x → ∃ y, r.1.txn v = some y ∧
        y.need f.kind = (x.need f.kind).map fun m => ⟨m.key, some f.entry, false⟩) ∧
      r.2 = (w :: rest).map .resume ++ [.retry f.kind] := by
  have small : f.entry < (s.pool f.kind).entries.length := lt_of_entry (by rw [waiters]; nofun)
  rw [completeFill_keeps (fillWaiters_filling waiters) kept clean]
  refine ⟨?_, fun v mem x busy => ?_, rfl⟩
  · rw [finishSlot_entry, foldl_mapTxn_entry]
    exact installed_entry small
  · rw [finishSlot_txn]
    exact present_of_needOf (needOf_foldl_found f.kind f.entry false (w :: rest) (installed f version s) mem) busy

theorem completeFill_transient (drop : keep = false ∨ version.toNat < f.highest.toNat) :
    let r := completeFill i f version keep s
    r.1.entry f.kind f.entry =
        .transient ⟨f.key, version, f.image, none⟩ (decide (version.toNat < f.highest.toNat)) w ∧
      (∀ x, s.txn w = some x → ∃ y, r.1.txn w = some y ∧
        y.need f.kind = (x.need f.kind).map fun m => ⟨m.key, some f.entry, true⟩) ∧
      (∀ x, s.txn w = some x → r.1.txn w = some (x.found f.kind f.entry true)) ∧
      r.2 = if version.toNat < f.highest.toNat then rest.map .resume ++ [.regather w] else .resume w :: rest.map .resume := by
  have small : f.entry < (s.pool f.kind).entries.length := lt_of_entry (by rw [waiters]; nofun)
  rw [completeFill_hands (fillWaiters_filling waiters) drop]
  refine ⟨?_, fun x busy => ?_, fun x busy => ?_, rfl⟩
  · rw [finishSlot_entry]
    exact handed_entry small
  · rw [finishSlot_txn]
    exact present_of_needOf (needOf_found f.kind f.entry true (handed f version _ w s) w) busy
  · rw [finishSlot_txn, State.txn_mapTxn, show (handed f version _ w s).txn w = s.txn w from rfl, busy]; rfl

end

end

/-- Settles O30: the fill that no one waits for, the fill with waiters by KEEP and taint, and the slot finished with. -/
theorem fillCompletes : Obligations.FillCompletes := by
  refine ⟨?_, ?_, fun s i => ⟨finishSlot_idle, fun w ws => finishSlot_takes⟩⟩
  · intro s tag version index flags data i f listening size slot gen fill requested inside length new others same e queue
      waiting service
    rw [exec_segment listening tag _ _ _ _ _ size,
      takeSegment_completes (s := counted s) slot gen fill requested inside length new others same]
    exact ⟨fun kept clean => congrArg _ (settle_keeps_alone (s := counted s) e queue waiting service kept clean),
      fun drop => congrArg _ (settle_drops_alone (s := counted s) e queue waiting service drop)⟩
  · intro s tag version index flags data i f ws listening size slot gen fill requested inside length new others same e
      f' r copy present
    refine ⟨?_, fun waited => ?_, fun waited mem => ?_, fun waited kept clean => ?_, fun w rest is => ?_⟩
    · rw [exec_segment listening tag _ _ _ _ _ size,
        takeSegment_completes (s := counted s) slot gen fill requested inside length new others same]
    · obtain ⟨w, rest, rfl⟩ := List.exists_cons_of_ne_nil waited
      obtain ⟨u, fu, finished, -⟩ := completeFill_finishes (s := withFill (counted s) i f') (f := f') (i := i)
        (version := version) (keep := flags.getLsbD 0) e
      exact ⟨u, fu, finished⟩
    · obtain ⟨w, rest, rfl⟩ := List.exists_cons_of_ne_nil waited
      obtain ⟨u, -, finished, lru⟩ := completeFill_finishes (s := withFill (counted s) i f') (f := f') (i := i)
        (version := version) (keep := flags.getLsbD 0) e
      rw [show r.1 = finishSlot i u from finished, finishSlot_pool]
      exact lru mem
    · obtain ⟨w, rest, rfl⟩ := List.exists_cons_of_ne_nil waited
      exact completeFill_valid (s := withFill (counted s) i f') (f := f') e kept clean
    · subst is
      have transient := completeFill_transient (s := withFill (counted s) i f') (f := f') (i := i) (version := version)
        (keep := flags.getLsbD 0) e
      refine ⟨fun drop clean => ?_, fun tainted => ?_⟩
      · obtain ⟨entry, owner, -, tasks⟩ := transient (.inl drop)
        rw [decide_eq_false (Nat.not_lt.mpr clean)] at entry
        rw [if_neg (Nat.not_lt.mpr clean)] at tasks
        exact ⟨entry, owner, tasks⟩
      · obtain ⟨entry, owner, txn, tasks⟩ := transient (.inr tainted)
        rw [decide_eq_true tainted] at entry
        rw [if_pos tainted] at tasks
        refine ⟨entry, owner, tasks, fun x last busy kept below running => ?_⟩
        subst last
        rw [show settle r = settle (r.1, [.regather w]) from congrArg (fun ts => settle (r.1, ts)) tasks]
        exact regather_running_card (txn x busy) (hushed_settled_regather w r.1) (card_found x _ _ true) kept below running

end Sys2Proof.Transactions

namespace Sys2Proof.Transactions

open Sys2Proof Sys2Proof.Machine Sys2Proof.Safety Sys2Proof.KioskLanes

/-! ## What stays while contexts go on

A set `K` of contexts that let go of nothing keeps its entries through everything that tasks do; a place where no record
is stays without one, and a fill that is asked for or waits goes on. -/

/-- What becomes of an entry: one that a context of `K` holds stays with it, only the wait list changing; where no record is,
none comes. -/
structure Firm (K : CtxId → Prop) (e e' : Entry) : Prop where
  locked : ∀ copy o ws, e = .valid copy (some o) ws → K o → ∃ ws', e' = .valid copy (some o) ws'
  owned : ∀ copy tainted o, e = .transient copy tainted o → K o → e' = .transient copy tainted o
  vacant : Vacant e → Vacant e'

/-- The entries of `K` stay, and so does each fill in a slot and the fill waiting list but for what joins it. -/
structure Stays (K : CtxId → Prop) (s t : State) : Prop where
  entries : ∀ k n, Firm K (s.entry k n) (t.entry k n)
  slots : ∀ i f, (s.slot i).fill = some f → t.slot i = s.slot i
  waiting : ∃ more, t.fu.waiting = s.fu.waiting ++ more

section
variable {K : CtxId → Prop}

theorem Firm.refl (e : Entry) : Firm K e e :=
  ⟨fun _ _ ws is _ => ⟨ws, is⟩, fun _ _ _ is _ => is, id⟩

theorem Firm.trans {e f g : Entry} (h : Firm K e f) (h' : Firm K f g) : Firm K e g where
  locked copy o ws is mine := by
    obtain ⟨ws', is'⟩ := h.locked copy o ws is mine
    exact h'.locked copy o ws' is' mine
  owned copy tainted o is mine := h'.owned copy tainted o (h.owned copy tainted o is mine) mine
  vacant v := h'.vacant (h.vacant v)

/-- An entry that no context of `K` holds may change, unless a record comes where none was. -/
theorem Firm.of_unheld {e e' : Entry} (unheld : ∀ o, K o → ¬ HeldBy o e) (vacant : Vacant e → Vacant e') : Firm K e e' where
  locked _ o _ is mine := absurd (by rw [is]; rfl) (unheld o mine)
  owned _ _ o is mine := absurd (by rw [is]; rfl) (unheld o mine)
  vacant := vacant

theorem Stays.refl (s : State) : Stays K s s := ⟨fun _ _ => .refl _, fun _ _ _ => rfl, [], (List.append_nil _).symm⟩

theorem Stays.trans {s t u : State} (h : Stays K s t) (g : Stays K t u) : Stays K s u where
  entries k n := (h.entries k n).trans (g.entries k n)
  slots i f fill := by
    have same := h.slots i f fill
    exact (g.slots i f (same.symm ▸ fill)).trans same
  waiting := by
    obtain ⟨joined, is⟩ := h.waiting
    obtain ⟨more, is'⟩ := g.waiting
    exact ⟨joined ++ more, by rw [is', is, List.append_assoc]⟩

/-- A change of the cache alone, as the fills see it. -/
theorem Stays.of_entries {s t : State} (fu : t.fu = s.fu) (entries : ∀ k n, Firm K (s.entry k n) (t.entry k n)) :
    Stays K s t :=
  ⟨entries, fun i _ _ => by rw [State.slot, fu, State.slot], [], by rw [fu, List.append_nil]⟩

/-- A change outside the cache and FU. -/
theorem Stays.of_same {s t : State} (rc : t.rc = s.rc) (fu : t.fu = s.fu) : Stays K s t :=
  .of_entries fu fun k n => by
    rw [show t.entry k n = s.entry k n from congrArg (fun rc : Cache => (rc.pool k).entry n) rc]; exact .refl _

theorem stays_setPool (s : State) (k : RecordKind) (p : Pool) (entries : ∀ n, Firm K (s.entry k n) (p.entry n)) :
    Stays K s (s.setPool k p) := by
  refine .of_entries rfl fun l n => ?_
  by_cases same : k = l
  · subst same
    rw [show (s.setPool k p).entry k n = p.entry n from congrArg (·.entry n) (State.pool_setPool s k p)]
    exact entries n
  · rw [show (s.setPool k p).entry l n = s.entry l n from congrArg (·.entry n) (State.pool_setPool_ne s p same)]
    exact .refl _

theorem firm_setEntry {p : Pool} {n : Nat} {e : Entry} (h : Firm K (p.entry n) e) (m : Nat) :
    Firm K (p.entry m) ((p.setEntry n e).entry m) := by
  unfold Pool.entry Pool.setEntry at *
  simp only [List.getD_eq_getElem?_getD, List.getElem?_set] at *
  split
  · next same =>
    subst same
    split
    · exact h
    · next beyond => simp [Firm.refl, beyond]
  · exact .refl _

theorem stays_setEntry (s : State) (k : RecordKind) (n : Nat) (e : Entry) (h : Firm K (s.entry k n) e) :
    Stays K s (s.setEntry k n e) :=
  stays_setPool s k _ (firm_setEntry h)

theorem stays_touch (s : State) (k : RecordKind) (n : Nat) : Stays K s (s.touch k n) :=
  stays_setPool s k _ fun _ => .refl _

theorem stays_setTxn (c : CtxId) (x : Option Txn) (s : State) : Stays K s (s.setTxn c x) := .of_same rfl rfl

/-! ## Wait lists -/

theorem firm_addWaiter (c : CtxId) (e : Entry) : Firm K e (e.addWaiter c) := by
  cases e with
  | empty => exact .refl _
  | transient copy tainted o => exact .refl _
  | filling key ws => exact .of_unheld (fun _ _ => id) id
  | valid copy o ws => exact ⟨fun _ _ _ is _ => by cases is; exact ⟨_, rfl⟩, nofun, id⟩

theorem firm_dropWaiter (c : CtxId) (e : Entry) : Firm K e (e.dropWaiter c) := by
  cases e with
  | empty => exact .refl _
  | transient copy tainted o => exact .refl _
  | filling key ws => exact .of_unheld (fun _ _ => id) id
  | valid copy o ws => exact ⟨fun _ _ _ is _ => by cases is; exact ⟨_, rfl⟩, nofun, id⟩

theorem stays_leaveLists (c : CtxId) (s : State) : Stays K s (leaveLists c s) :=
  .of_entries rfl fun k n => by rw [leaveLists_entry]; exact firm_dropWaiter c _

/-! ## Releases by contexts outside the set (R73, R76) -/

theorem not_vacant_of_heldBy {c : CtxId} {e : Entry} (h : HeldBy c e) : ¬ Vacant e := by
  cases e with
  | empty => exact h.elim
  | filling key ws => exact h.elim
  | valid copy o ws => exact id
  | transient copy tainted o => exact id

theorem releaseEntry_fu (c : CtxId) (k : RecordKind) (n : Nat) (s : State) : (releaseEntry c k n s).1.fu = s.fu := by
  rcases releaseEntry_cases c k n s with ⟨-, e⟩ | ⟨-, ts, e⟩ | ⟨copy, -, e⟩ | ⟨copy, w, rest, -, e⟩ <;> rw [e]
  · exact foldl_mapTxn_fu _ _ _
  · rfl
  · rfl

section
variable {c : CtxId} (other : ¬ K c)
include other

theorem stays_releaseEntry (k : RecordKind) (n : Nat) (s : State) : Stays K s (releaseEntry c k n s).1 := by
  refine .of_entries (releaseEntry_fu c k n s) fun l m => ?_
  by_cases same : k = l ∧ n = m
  · obtain ⟨rfl, rfl⟩ := same
    by_cases held : HeldBy c (s.entry k n)
    · exact .of_unheld (fun o mine holds => other (heldBy_unique holds held ▸ mine)) fun vacant =>
        absurd vacant (not_vacant_of_heldBy held)
    · rw [releaseEntry_of_unheld c k n s held]; exact .refl _
  · rw [releaseEntry_entry_other c k n s fun kind place => same ⟨kind, place⟩]; exact .refl _

theorem stays_releaseNeed (x : Txn) (k : RecordKind) (s : State) : Stays K s (releaseNeed c x k s).1 := by
  unfold releaseNeed; split
  · exact stays_releaseEntry other k _ s
  · exact .refl s

theorem stays_releaseLock (x : Txn) (k : RecordKind) (s : State) : Stays K s (releaseLock c x k s).1 := by
  unfold releaseLock; split
  · exact .refl s
  · exact stays_releaseNeed other x k s

theorem stays_releaseAll (x : Txn) (s : State) : Stays K s (releaseAll c x s).1 :=
  have lock := stays_releaseLock other x
  have need := stays_releaseNeed other x
  (((lock _ _).trans (lock _ _)).trans (lock _ _)).trans (((need _ _).trans (need _ _)).trans (need _ _))

theorem stays_letGo (x : Txn) (new : Option Txn) (s : State) : Stays K s (releaseAll c x (offLists c s new)).1 :=
  ((stays_leaveLists c s).trans (stays_setTxn c new _)).trans (stays_releaseAll other x _)

theorem stays_endCtx (code : ResultCode) (fields : List Octet) (s : State) : Stays K s (endCtx c code fields s).1 := by
  cases busy : s.txn c with
  | none => rw [endCtx, busy]; exact .refl s
  | some x =>
    rw [endCtx_busy busy]
    refine Stays.trans ?_ (stays_letGo other x none _)
    unfold replied; split <;> exact .of_same rfl rfl

theorem stays_regather (s : State) : Stays K s (regather c s).1 := by
  cases busy : s.txn c with
  | none => rw [regather, busy]; exact .refl s
  | some x =>
  cases kept : x.abandoned with
  | true => rw [regather_abandoned busy kept]; exact stays_letGo other x none s
  | false =>
  by_cases limit : 2 ≤ x.regathers
  · rw [regather_limit busy kept limit]; exact stays_endCtx other _ _ s
  have below := Nat.not_le.mp limit
  have back : Stays K s (again c x s) := (stays_letGo other x _ s).trans (.of_same rfl rfl)
  cases deadline : x.deadline with
  | running => rw [regather_running busy kept below deadline]; exact back
  | passed => rw [(regather_passed busy kept below deadline).1]; exact back.trans (stays_endCtx other _ _ _)

theorem stays_resettle (x : Txn) (item : Image) (s : State) : Stays K s (resettle c x item s).1 :=
  (((stays_setTxn c _ s).trans (stays_releaseLock other x .patron _)).trans
    (stays_releaseNeed other x .title _)).trans (stays_releaseLock other x .item _)

end

/-! ## Lookups (R64-R66, R85) -/

theorem idleSlot_idle {s : State} {i : SlotId} (h : idleSlot s = some i) : (s.slot i).fill = none :=
  Option.isNone_iff_eq_none.mp (List.find?_some (p := fun i => (s.slot i).fill.isNone) h)

/-- A slot that holds no fill takes one up; every fill there is goes on. -/
theorem stays_asking {i : SlotId} {s : State} (idle : (s.slot i).fill = none) (gen : Gen) (f : Fill) (first count : Nat) :
    Stays K s (asking i gen f first count s) := by
  have written : ∀ x, Stays K s (s.setSlot i x) := fun x => by
    refine ⟨fun _ _ => .refl _, fun j g fill => State.slot_setSlot_ne s x fun same => ?_, [], (List.append_nil _).symm⟩
    rw [same, fill] at idle
    cases idle
  unfold asking; split
  · exact written _
  · exact (written _).trans (.of_same rfl rfl)

theorem stays_giveFill (w : WaitingFill) (s : State) : Stays K s (giveFill w s) := by
  cases idle : idleSlot s with
  | none =>
    rw [giveFill_waits idle]
    exact ⟨fun _ _ => .refl _, fun _ _ _ => rfl, [w], rfl⟩
  | some i =>
    rw [giveFill_idle idle]
    exact stays_asking (idleSlot_idle idle) _ _ _ _

/-- An EMPTY entry, or one that can be evicted, is held by no one. -/
theorem firm_filling {e : Entry} (key : Key) (c : CtxId) (room : e = .empty ∨ e.evictable = true) :
    Firm K e (.filling key [c]) := by
  refine .of_unheld (fun o _ held => ?_) fun _ => trivial
  rcases room with rfl | evict
  · exact held
  · unfold Entry.evictable at evict
    split at evict
    · cases held
    · cases evict

theorem stays_lookup (c : CtxId) (k : RecordKind) (key : Key) (s : State) : Stays K s (lookup c k key s).1 := by
  unfold lookup; dsimp only; split
  · next n _ =>
    split
    · exact stays_setPool s k _ fun _ => .refl _
    · exact stays_setPool s k _ (firm_setEntry (firm_addWaiter c _))
  split
  · next n room =>
    have taken : ∀ m, Firm K (s.entry k m) (((((s.pool k).setEntry n (.filling key [c])).touch n).leaveQueue c).entry m) :=
      firm_setEntry (firm_filling key c (room_entry room))
    exact (stays_setPool s k _ taken).trans (stays_giveFill _ _)
  · refine stays_setPool s k _ fun n => ?_
    unfold Pool.joinQueue; split <;> exact .refl _

/-! ## The steps of GATHER (R48-R51, R60) -/

theorem stays_enterDecide (c : CtxId) (x : Txn) (s : State) : Stays K s (enterDecide c x s) := .of_same rfl rfl

theorem stays_requestLock (c : CtxId) (x : Txn) (k : RecordKind) (key : Key) (n : Nat) (s : State) :
    Stays K s (requestLock c x k key n s).1 := by
  unfold requestLock; dsimp only
  split
  · next copy o ws e =>
    split
    · exact stays_setTxn c _ s
    split
    · refine ((stays_setTxn c _ s).trans (stays_setEntry _ k n _ ?_)).trans (stays_touch _ k n)
      rw [show (s.setTxn c _).entry k n = s.entry k n from rfl, e]
      exact .of_unheld (fun _ _ => nofun) False.elim
    split
    · exact stays_setTxn c _ s
    · refine stays_setEntry s k n _ ?_
      rw [e]; exact firm_addWaiter c _
  · split <;> exact stays_setTxn c _ s
  · exact stays_setTxn c _ s
  · exact stays_setTxn c _ s

theorem stays_copyPatron (c : CtxId) (x : Txn) (s : State) : Stays K s (copyPatron c x s).1 := by
  unfold copyPatron; repeat' split
  · exact (stays_touch s .patron _).trans (stays_enterDecide c _ _)
  · exact stays_setTxn c _ s
  · exact .refl s

theorem stays_allLocked {c : CtxId} (other : ¬ K c) (x : Txn) (s : State) : Stays K s (allLocked c x s).1 := by
  unfold allLocked; repeat' split
  · exact stays_enterDecide c x s
  · exact stays_resettle other x _ s
  · exact stays_setTxn c _ s
  · exact stays_enterDecide c x s

/-- The context lets go of nothing when a notice reaches it or it is woken: it is in COMMIT, or an ACCOUNT context (R60,
R78). -/
def Sits (s : State) (c : CtxId) : Prop := ∃ x, s.txn c = some x ∧ (x.state = .commit ∨ x.request.isAccount = true)

theorem sits_iff (s : State) (c : CtxId) :
    Sits s c ↔ ∃ y, cardOf s c = some y ∧ (y.committing = true ∨ y.request.isAccount = true) := by
  constructor
  · rintro ⟨x, busy, kind⟩
    exact ⟨card x, by rw [cardOf, busy]; rfl, kind.imp_left decide_eq_true⟩
  · rintro ⟨y, is, kind⟩
    obtain ⟨x, busy, rfl⟩ := Option.map_eq_some_iff.mp is
    exact ⟨x, busy, kind.imp_left of_decide_eq_true⟩

theorem sits_of_cards {s t : State} {c : CtxId} (same : cardOf t c = cardOf s c) (h : Sits s c) : Sits t c := by
  rw [sits_iff] at h ⊢
  rwa [same]

theorem stays_resumeCtx {c : CtxId} {s : State} (mine : K c → Sits s c) : Stays K s (resumeCtx c s).1 := by
  unfold resumeCtx
  split
  · exact .refl s
  next x busy =>
  split
  · exact .refl s
  next gathers =>
  split
  · split <;> exact stays_setTxn c _ s
  split
  · next k key _ =>
    have found : Stays K s (lookup c k key s).1 := stays_lookup c k key s
    split
    · next s' n e => rw [e] at found; exact found.trans (stays_setTxn c _ s')
    · next s' e => rw [e] at found; exact found
  split
  · exact stays_copyPatron c _ s
  next books =>
  split
  · exact stays_requestLock c _ _ _ _ s
  · refine stays_allLocked (fun is => ?_) _ s
    obtain ⟨y, busy', kind⟩ := mine is
    obtain rfl : x = y := Option.some.inj (busy.symm.trans busy')
    rcases kind with commits | account
    · exact gathers (by rw [commits]; decide)
    · exact books account

/-! ## Tasks -/

/-- The tasks make no context of the set regather. -/
def Spared (K : CtxId → Prop) (ts : List Task) : Prop := ∀ c, Task.regather c ∈ ts → ¬ K c

theorem spared_of_quiet {ts : List Task} (quiet : ∀ t ∈ ts, t.quiet = true) : Spared K ts :=
  fun _ mem => nomatch quiet _ mem

/-- A task keeps the set's entries and its contexts as they sit, and sets off no regather. -/
theorem stays_doTask {s : State} (sit : ∀ c, K c → Sits s c) {t : Task} {ts : List Task} (spared : Spared K (t :: ts)) :
    Stays K s (doTask t s).1 ∧ (∀ c, K c → Sits (doTask t s).1 c) ∧ ∀ u ∈ (doTask t s).2, u.quiet = true := by
  have hushed : t.quiet = true → (∀ c, K c → Sits (doTask t s).1 c) ∧ ∀ u ∈ (doTask t s).2, u.quiet = true := fun quiet =>
    ⟨fun c mine => sits_of_cards ((hushed_doTask t quiet s).1.cards c) (sit c mine), (hushed_doTask t quiet s).2⟩
  cases t with
  | retry k => exact ⟨.refl s, hushed rfl⟩
  | resume c => exact ⟨stays_resumeCtx (sit c), hushed rfl⟩
  | regather d =>
    have other := spared d List.mem_cons_self
    refine ⟨stays_regather other s, fun c mine => ?_, quiet_regather d s⟩
    have apart : c ≠ d := fun same => other (same ▸ mine)
    cases busy : s.txn d with
    | none => rw [doTask, regather, busy]; exact sit c mine
    | some x => exact sits_of_cards (regather_others busy (.refl _) apart) (sit c mine)

theorem stays_runTasks (fuel : Nat) {ts : List Task} {s : State} (sit : ∀ c, K c → Sits s c) (spared : Spared K ts) :
    Stays K s (runTasks fuel ts s) := by
  induction fuel generalizing ts s with
  | zero => exact .refl s
  | succ n ih =>
    cases ts with
    | nil => exact .refl s
    | cons t ts =>
      obtain ⟨one, sit', quiet⟩ := stays_doTask sit spared
      rw [runTasks_cons]
      refine one.trans (ih sit' fun c mem => ?_)
      rcases List.mem_append.mp mem with set | behind
      · exact spared_of_quiet quiet c set
      · exact spared c (List.mem_cons_of_mem t behind)

theorem stays_settleQuiesce (s : State) : Stays K s (settleQuiesce s) := by
  unfold settleQuiesce answer pumpReplies
  dsimp only
  repeat' split
  all_goals exact .of_same rfl rfl

theorem stays_settle {r : State × List Task} (sit : ∀ c, K c → Sits r.1 c) (spared : Spared K r.2) :
    Stays K r.1 (settle r) :=
  (stays_runTasks _ sit spared).trans (stays_settleQuiesce _)

/-- Where no record is, none comes but by a fill. -/
theorem Stays.vacated {s t : State} (h : Stays K s t) {k : RecordKind} {n : Nat} (was : Vacated s k n) : Vacated t k n := by
  rw [vacated_iff] at was ⊢
  exact (h.entries k n).vacant was

end

/-- A regather with all it sets off brings no record where the regather itself leaves none. -/
theorem vacated_settled_regather {c : CtxId} {s : State} {k : RecordKind} {n : Nat} (h : Vacated (regather c s).1 k n) :
    Vacated (settle (s, [.regather c])) k n := by
  have quiet : Spared (fun _ => False) (regather c s).2 := fun _ _ => id
  rw [settle_regather]
  exact ((stays_runTasks 65535 (fun _ => False.elim) quiet).trans (stays_settleQuiesce _)).vacated h

end Sys2Proof.Transactions

namespace Sys2Proof.Transactions

open Sys2Proof Sys2Proof.Machine Sys2Proof.Safety Sys2Proof.KioskLanes

/-! ## A change notice arrives (R77) -/

theorem ofCode_code (k : RecordKind) : RecordKind.ofCode k.code = some k := by cases k <;> rfl

theorem ofCode_none {kind : Octet} (h : kind.toNat = 0 ∨ 4 ≤ kind.toNat) : RecordKind.ofCode kind = none := by
  have other : ∀ c : Octet, 1 ≤ c.toNat → c.toNat ≤ 3 → kind ≠ c := fun c low high same => by
    subst same; omega
  rw [RecordKind.ofCode, if_neg (other 1 (by decide) (by decide)), if_neg (other 2 (by decide) (by decide)),
    if_neg (other 3 (by decide) (by decide))]

section
variable {s : State} {k : RecordKind} {key : Key} {v : Version}

theorem exec_invalidate (h : Listening s) (kind : Octet) (key : Key) (v : Version) :
    exec (.invalidate kind key v) s = .next (takeInvalidate kind key v (counted s)) := by
  refine congrArg Host.Outcome.next ?_
  have length : (kind :: beOctets 4 key.toNat ++ beOctets 4 v.toNat).length = 9 := by
    simp only [List.length_append, List.length_cons, beOctets_length]
  rw [live_powered h.1]
  refine arrive_listening _ _ s h rfl (by rw [length]; decide) ?_
  rw [length]; rfl

/-- RC and FU have noted the notice, before anything follows. -/
def taken (k : RecordKind) (key : Key) (v : Version) (s : State) : State × List Task :=
  noteInEntries k key v (List.range (s.pool k).entries.length) (noteInFills k key v s)

theorem exec_invalidate_taken (h : Listening s) (known : key ≠ 0) :
    exec (.invalidate k.code key v) s = .next (settle (taken k key v (counted s))) := by
  simp only [exec_invalidate h, takeInvalidate, ofCode_code, if_neg known]; rfl

/-! ## What FU notes (R97) -/

/-- The highest version of a fill as FU notes it. -/
def raised (k : RecordKind) (key : Key) (v : Version) (kind : RecordKind) (key' : Key) (seen : Version) : Version :=
  if kind = k ∧ key' = key ∧ seen.toNat < v.toNat then v else seen

theorem raised_eq (kind : RecordKind) (key' : Key) (seen : Version) :
    raised k key v kind key' seen = if kind = k ∧ key' = key then raiseTo seen v else seen := by
  unfold raised raiseTo
  by_cases named : kind = k ∧ key' = key
  · rw [if_pos named]; simp [named]
  · rw [if_neg named, if_neg fun both => named ⟨both.1, both.2.1⟩]

theorem noted_fill (f : Fill) : (if f.kind = k ∧ f.key = key then { f with highest := raiseTo f.highest v } else f) =
    { f with highest := raised k key v f.kind f.key f.highest } := by
  rw [raised_eq]; split <;> rfl

theorem noted_waiting (w : WaitingFill) :
    (if w.kind = k ∧ w.key = key then { w with highest := raiseTo w.highest v } else w) =
      { w with highest := raised k key v w.kind w.key w.highest } := by
  rw [raised_eq]; split <;> rfl

theorem noteInFills_fu (s : State) : (noteInFills k key v s).fu =
    { slots := s.fu.slots.map fun y =>
        { y with fill := y.fill.map fun f => { f with highest := raised k key v f.kind f.key f.highest } }
      waiting := s.fu.waiting.map fun w => { w with highest := raised k key v w.kind w.key w.highest } } := by
  simp only [noteInFills, noted_fill, noted_waiting]

theorem noteInFills_slot (i : SlotId) : (noteInFills k key v s).slot i = { s.slot i with
    fill := (s.slot i).fill.map fun f => { f with highest := raised k key v f.kind f.key f.highest } } := by
  rw [State.slot, noteInFills_fu]
  simp [State.slot]

theorem raised_fill (f : Fill) : { f with highest := raised k key v f.kind f.key f.highest } =
    if f.kind = k ∧ f.key = key ∧ f.highest.toNat < v.toNat then { f with highest := v } else f := by
  unfold raised; split <;> rfl

theorem raised_waiting (w : WaitingFill) : { w with highest := raised k key v w.kind w.key w.highest } =
    if w.kind = k ∧ w.key = key ∧ w.highest.toNat < v.toNat then { w with highest := v } else w := by
  unfold raised; split <;> rfl

theorem raised_of_other {kind : RecordKind} {key' : Key} {seen : Version} (h : kind ≠ k ∨ key' ≠ key) :
    raised k key v kind key' seen = seen := if_neg fun both => h.elim (· both.1) (· both.2.1)

/-- Where no fill is for the key FU notes nothing. -/
theorem noteInFills_nothing (slots : ∀ i f, (s.slot i).fill = some f → f.kind ≠ k ∨ f.key ≠ key)
    (waiting : ∀ w ∈ s.fu.waiting, w.kind ≠ k ∨ w.key ≠ key) : noteInFills k key v s = s := by
  have slot : ∀ i, (noteInFills k key v s).slot i = s.slot i := fun i => by
    rw [noteInFills_slot]
    cases fill : (s.slot i).fill with
    | none => rw [Option.map_none, ← fill]
    | some f => rw [Option.map_some, raised_of_other (slots i f fill), ← fill]
  have line : (noteInFills k key v s).fu.waiting = s.fu.waiting := by
    rw [noteInFills_fu]
    refine (List.map_congr_left fun w mem => ?_).trans (List.map_id _)
    rw [raised_of_other (waiting w mem)]; rfl
  have fu : (noteInFills k key v s).fu = s.fu :=
    congrArg₂ FillUnit.mk (Vector.ext fun i small => slot ⟨i, small⟩) line
  exact congrArg (fun fu => ({ s with fu := fu } : State)) fu

/-! ## What RC does to one entry (R77-R79) -/

theorem notice_eq_marked {copy : Copy} (below : copy.version.toNat < v.toNat) : copy.notice v = marked copy v := by
  rw [Copy.notice, if_pos below, Copy.noteVersion, marked]
  cases copy.stale <;> rfl

section
variable {n : Nat} {copy : Copy}

theorem noteInEntry_nothing (h : ¬ Superseded s k key v n) : noteInEntry k key v n s = (s, []) := by
  unfold Superseded at h
  cases e : s.entry k n with
  | empty => simp only [noteInEntry, e]
  | filling key' ws => simp only [noteInEntry, e]
  | valid copy o ws => rw [e] at h; simp only [noteInEntry, e, if_neg h]
  | transient copy tainted o => rw [e] at h; simp only [noteInEntry, e, if_neg h]

theorem noteInEntry_unlocked {ws : List CtxId} (e : s.entry k n = .valid copy none ws) (named : copy.key = key)
    (below : copy.version.toNat < v.toNat) : noteInEntry k key v n s = (s.setEntry k n .empty, [.retry k]) := by
  simp only [noteInEntry, e, named, below, and_self, if_true]

theorem noteInEntry_locked {ws : List CtxId} {o : CtxId} (e : s.entry k n = .valid copy (some o) ws) (named : copy.key = key)
    (below : copy.version.toNat < v.toNat) :
    noteInEntry k key v n s = (s.setEntry k n (.valid (marked copy v) (some o) ws), tellHolder o s) := by
  simp only [noteInEntry, e, named, below, and_self, if_true, notice_eq_marked below]

theorem noteInEntry_transient {tainted : Bool} {o : CtxId} (e : s.entry k n = .transient copy tainted o)
    (named : copy.key = key) (below : copy.version.toNat < v.toNat) :
    noteInEntry k key v n s = (s.setEntry k n (.transient (marked copy v) tainted o), tellHolder o s) := by
  simp only [noteInEntry, e, named, below, and_self, if_true, notice_eq_marked below]

/-- A notice writes the entry or nothing, and tells no one who sits. -/
theorem noteInEntry_outcome (k : RecordKind) (key : Key) (v : Version) (n : Nat) (s : State) :
    ((noteInEntry k key v n s).1 = s ∨ ∃ e, (noteInEntry k key v n s).1 = s.setEntry k n e) ∧
      Spared (Sits s) (noteInEntry k key v n s).2 := by
  have told : ∀ o, Spared (Sits s) (tellHolder o s) := fun o c mem => by
    unfold tellHolder at mem
    split at mem
    · next x busy =>
      split at mem
      · cases mem
      · next moves =>
        obtain rfl : c = o := Task.regather.inj (List.mem_singleton.mp mem)
        rintro ⟨y, busy', kind⟩
        obtain rfl : x = y := Option.some.inj (busy.symm.trans busy')
        exact moves kind
    · cases mem
  by_cases acts : Superseded s k key v n
  · unfold Superseded at acts
    cases e : s.entry k n with
    | empty => rw [e] at acts; exact acts.elim
    | filling key' ws => rw [e] at acts; exact acts.elim
    | transient copy tainted o =>
      rw [e] at acts
      rw [noteInEntry_transient e acts.1 acts.2]
      exact ⟨.inr ⟨_, rfl⟩, told o⟩
    | valid copy o ws =>
      rw [e] at acts
      cases o with
      | none =>
        rw [noteInEntry_unlocked e acts.1 acts.2]
        exact ⟨.inr ⟨_, rfl⟩, fun c mem => by simp at mem⟩
      | some o =>
        rw [noteInEntry_locked e acts.1 acts.2]
        exact ⟨.inr ⟨_, rfl⟩, told o⟩
  · rw [noteInEntry_nothing acts]
    exact ⟨.inl rfl, fun _ mem => nomatch mem⟩

/-- Of the state a notice at one entry changes the cache alone. -/
theorem noteInEntry_moves (k : RecordKind) (key : Key) (v : Version) (n : Nat) (s : State) :
    ∃ rc, (noteInEntry k key v n s).1 = { s with rc := rc } := by
  rcases (noteInEntry_outcome k key v n s).1 with same | ⟨e, written⟩
  · exact ⟨s.rc, same⟩
  · exact ⟨_, written⟩

theorem noteInEntry_other {m : Nat} (h : m ≠ n) : (noteInEntry k key v m s).1.entry k n = s.entry k n := by
  rcases (noteInEntry_outcome k key v m s).1 with same | ⟨e, written⟩
  · rw [same]
  · rw [written, State.entry_setEntry_ne s k e h]

end

/-! ## What RC does to a pool (R77) -/

theorem noteInEntries_cons (n : Nat) (ns : List Nat) (s : State) : noteInEntries k key v (n :: ns) s =
    ((noteInEntries k key v ns (noteInEntry k key v n s).1).1,
      (noteInEntry k key v n s).2 ++ (noteInEntries k key v ns (noteInEntry k key v n s).1).2) := rfl

theorem noteInEntries_moves (k : RecordKind) (key : Key) (v : Version) (ns : List Nat) (s : State) :
    ∃ rc, (noteInEntries k key v ns s).1 = { s with rc := rc } := by
  induction ns generalizing s with
  | nil => exact ⟨s.rc, rfl⟩
  | cons n ns ih =>
    obtain ⟨rc, one⟩ := noteInEntry_moves k key v n s
    obtain ⟨rc', rest⟩ := ih (noteInEntry k key v n s).1
    exact ⟨rc', by rw [noteInEntries_cons, rest, one]⟩

theorem noteInEntries_other {n : Nat} {ns : List Nat} (h : n ∉ ns) (s : State) :
    (noteInEntries k key v ns s).1.entry k n = s.entry k n := by
  induction ns generalizing s with
  | nil => rfl
  | cons m ns ih =>
    obtain ⟨apart, later⟩ := not_or.mp (List.mem_cons.not.mp h)
    rw [noteInEntries_cons, ih later, noteInEntry_other (Ne.symm apart)]

/-- Each entry has its own turn, as it stood before. -/
theorem noteInEntries_turn {n : Nat} {ns : List Nat} (mem : n ∈ ns) (once : ns.Nodup) (s : State) :
    ∃ u : State, u.entry k n = s.entry k n ∧
      (noteInEntries k key v ns s).1.entry k n = (noteInEntry k key v n u).1.entry k n := by
  induction ns generalizing s with
  | nil => cases mem
  | cons m ns ih =>
    obtain ⟨fresh, rest⟩ := List.nodup_cons.mp once
    rw [noteInEntries_cons]
    by_cases here : m = n
    · subst here
      exact ⟨s, rfl, noteInEntries_other fresh _⟩
    · obtain ⟨u, before, after⟩ := ih ((List.mem_cons.mp mem).resolve_left (Ne.symm here)) rest (noteInEntry k key v m s).1
      exact ⟨u, before.trans (noteInEntry_other here), after⟩

theorem spared_noteInEntries (ns : List Nat) (s : State) : Spared (Sits s) (noteInEntries k key v ns s).2 := by
  induction ns generalizing s with
  | nil => exact fun _ mem => nomatch mem
  | cons n ns ih =>
    obtain ⟨rc, moved⟩ := noteInEntry_moves k key v n s
    intro c mem
    rw [noteInEntries_cons] at mem
    rcases List.mem_append.mp mem with here | later
    · exact (noteInEntry_outcome k key v n s).2 c here
    · have spared := ih _ c later
      rw [moved] at spared
      exact spared

theorem superseded_congr {t : State} {n : Nat} (h : t.entry k n = s.entry k n) :
    Superseded t k key v n ↔ Superseded s k key v n := by
  unfold Superseded; rw [h]

theorem noteInEntries_nothing {ns : List Nat} (h : ∀ n ∈ ns, ¬ Superseded s k key v n) :
    noteInEntries k key v ns s = (s, []) := by
  induction ns with
  | nil => rfl
  | cons n ns ih =>
    rw [noteInEntries_cons, noteInEntry_nothing (h n List.mem_cons_self),
      ih fun m mem => h m (List.mem_cons_of_mem n mem)]
    rfl

/-- Where the notice acts on one entry alone, RC does what it does there. -/
theorem noteInEntries_alone {n : Nat} {ns : List Nat} (mem : n ∈ ns) (once : ns.Nodup)
    (alone : ∀ m, m ≠ n → ¬ Superseded s k key v m) : noteInEntries k key v ns s = noteInEntry k key v n s := by
  induction ns with
  | nil => cases mem
  | cons m ns ih =>
    obtain ⟨fresh, rest⟩ := List.nodup_cons.mp once
    rw [noteInEntries_cons]
    by_cases here : m = n
    · subst here
      rw [noteInEntries_nothing fun j mem => ?_, List.append_nil]
      have apart : j ≠ m := fun same => fresh (same ▸ mem)
      rw [superseded_congr (noteInEntry_other (Ne.symm apart))]
      exact alone j apart
    · rw [noteInEntry_nothing (alone m here), ih ((List.mem_cons.mp mem).resolve_left (Ne.symm here)) rest]
      rfl

end

end Sys2Proof.Transactions

namespace Sys2Proof.Transactions

open Sys2Proof Sys2Proof.Machine Sys2Proof.Safety Sys2Proof.KioskLanes

/-! ## A notice as FU and RC have taken it (R77, R97) -/

section
variable {s : State} {k : RecordKind} {key : Key} {v : Version} {n : Nat} {copy : Copy}

theorem taken_moves (k : RecordKind) (key : Key) (v : Version) (s : State) :
    ∃ rc, (taken k key v s).1 = { noteInFills k key v s with rc := rc } := noteInEntries_moves k key v _ _

theorem spared_taken (k : RecordKind) (key : Key) (v : Version) (s : State) :
    Spared (Sits (taken k key v s).1) (taken k key v s).2 := by
  obtain ⟨rc, moved⟩ := taken_moves k key v s
  rw [moved]
  exact spared_noteInEntries _ (noteInFills k key v s)

theorem sits_taken {c : CtxId} (h : Sits s c) : Sits (taken k key v s).1 c := by
  obtain ⟨rc, moved⟩ := taken_moves k key v s
  rw [moved]
  exact h

/-- What follows a notice keeps what the contexts that sit hold. -/
theorem stays_taken (k : RecordKind) (key : Key) (v : Version) (s : State) :
    Stays (Sits (taken k key v s).1) (taken k key v s).1 (settle (taken k key v s)) :=
  stays_settle (fun _ => id) (spared_taken k key v s)

theorem superseded_of_valid {o : Option CtxId} {ws : List CtxId} (e : s.entry k n = .valid copy o ws) :
    Superseded s k key v n ↔ copy.key = key ∧ copy.version.toNat < v.toNat := by
  unfold Superseded; rw [e]

theorem superseded_of_transient {tainted : Bool} {o : CtxId} (e : s.entry k n = .transient copy tainted o) :
    Superseded s k key v n ↔ copy.key = key ∧ copy.version.toNat < v.toNat := by
  unfold Superseded; rw [e]

theorem taken_entry (held : s.entry k n ≠ .empty) : ∃ u : State, u.entry k n = s.entry k n ∧
    (taken k key v s).1.entry k n = (noteInEntry k key v n u).1.entry k n :=
  noteInEntries_turn (List.mem_range.mpr (lt_of_entry held)) List.nodup_range (noteInFills k key v s)

theorem taken_unlocked {ws : List CtxId} (e : s.entry k n = .valid copy none ws) (named : copy.key = key)
    (below : copy.version.toNat < v.toNat) : (taken k key v s).1.entry k n = .empty := by
  obtain ⟨u, before, after⟩ := taken_entry (k := k) (key := key) (v := v) (by rw [e]; nofun)
  rw [e] at before
  rw [after, noteInEntry_unlocked before named below]
  exact State.entry_setEntry u k n _ (lt_of_entry (by rw [before]; nofun))

theorem taken_locked {o : CtxId} {ws : List CtxId} (e : s.entry k n = .valid copy (some o) ws) (named : copy.key = key)
    (below : copy.version.toNat < v.toNat) : (taken k key v s).1.entry k n = .valid (marked copy v) (some o) ws := by
  obtain ⟨u, before, after⟩ := taken_entry (k := k) (key := key) (v := v) (by rw [e]; nofun)
  rw [e] at before
  rw [after, noteInEntry_locked before named below]
  exact State.entry_setEntry u k n _ (lt_of_entry (by rw [before]; nofun))

theorem taken_transient {o : CtxId} {tainted : Bool} (e : s.entry k n = .transient copy tainted o) (named : copy.key = key)
    (below : copy.version.toNat < v.toNat) : (taken k key v s).1.entry k n = .transient (marked copy v) tainted o := by
  obtain ⟨u, before, after⟩ := taken_entry (k := k) (key := key) (v := v) (by rw [e]; nofun)
  rw [e] at before
  rw [after, noteInEntry_transient before named below]
  exact State.entry_setEntry u k n _ (lt_of_entry (by rw [before]; nofun))

theorem taken_nothing (h : ∀ n, ¬ Superseded s k key v n) : taken k key v s = (noteInFills k key v s, []) :=
  noteInEntries_nothing fun n _ => h n

/-- Where the notice acts on one entry alone, RC does what it does there. -/
theorem taken_alone (acts : Superseded s k key v n) (alone : ∀ m, m ≠ n → ¬ Superseded s k key v m) :
    taken k key v s = noteInEntry k key v n (noteInFills k key v s) := by
  have held : s.entry k n ≠ .empty := fun e => by unfold Superseded at acts; rw [e] at acts; exact acts
  exact noteInEntries_alone (List.mem_range.mpr (lt_of_entry held)) List.nodup_range alone

/-! ## The notice by what it finds (R52, R77-R79) -/

/-- Every fill for the key takes a higher version and goes on, whatever else the notice sets off (R97). -/
theorem settle_taken_fills (k : RecordKind) (key : Key) (v : Version) (s : State) :
    (∀ i f, (s.slot i).fill = some f → (settle (taken k key v s)).slot i =
      { s.slot i with fill := some { f with highest := raised k key v f.kind f.key f.highest } }) ∧
    ∃ more, (settle (taken k key v s)).fu.waiting =
      (s.fu.waiting.map fun w => { w with highest := raised k key v w.kind w.key w.highest }) ++ more := by
  obtain ⟨rc, moved⟩ := taken_moves k key v s
  have stays := stays_taken k key v s
  have fu : (taken k key v s).1.fu = (noteInFills k key v s).fu := by rw [moved]
  constructor
  · intro i f fill
    have noted : (taken k key v s).1.slot i =
        { s.slot i with fill := some { f with highest := raised k key v f.kind f.key f.highest } } := by
      rw [State.slot, fu]
      exact (noteInFills_slot i).trans (by rw [fill]; rfl)
    rw [stays.slots i _ (congrArg FillSlot.fill noted), noted]
  · obtain ⟨more, is⟩ := stays.waiting
    exact ⟨more, by rw [is, fu, noteInFills_fu]⟩

theorem settle_taken_unlocked {ws : List CtxId} (e : s.entry k n = .valid copy none ws) (named : copy.key = key)
    (below : copy.version.toNat < v.toNat) : Vacated (settle (taken k key v s)) k n :=
  (stays_taken k key v s).vacated (.inl (taken_unlocked e named below))

/-- An entry whose holder sits is marked with the version and stays (R78). -/
theorem settle_taken_locked {o : CtxId} {ws : List CtxId} (e : s.entry k n = .valid copy (some o) ws) (named : copy.key = key)
    (below : copy.version.toNat < v.toNat) (sits : Sits s o) :
    ∃ ws', (settle (taken k key v s)).entry k n = .valid (marked copy v) (some o) ws' :=
  ((stays_taken k key v s).entries k n).locked _ _ _ (taken_locked e named below) (sits_taken sits)

theorem settle_taken_transient {o : CtxId} {tainted : Bool} (e : s.entry k n = .transient copy tainted o)
    (named : copy.key = key) (below : copy.version.toNat < v.toNat) (sits : Sits s o) :
    (settle (taken k key v s)).entry k n = .transient (marked copy v) tainted o :=
  ((stays_taken k key v s).entries k n).owned _ _ _ (taken_transient e named below) (sits_taken sits)

/-- An unlocked entry with no one waiting for it or for room becomes EMPTY and nothing further follows. -/
theorem settle_taken_empties (e : s.entry k n = .valid copy none []) (acts : Superseded s k key v n)
    (alone : ∀ m, m ≠ n → ¬ Superseded s k key v m) (quiet : noteInFills k key v s = s) (queue : (s.pool k).queue = [])
    (service : s.um.service ≠ .quiescing) : settle (taken k key v s) = s.setEntry k n .empty := by
  obtain ⟨named, below⟩ := (superseded_of_valid e).mp acts
  rw [taken_alone acts alone, quiet, noteInEntry_unlocked e named below, settle,
    runTasks_retry ((setEntry_queue s k k n _).trans queue), settleQuiesce_busy (s := s.setEntry k n .empty) service]

end

/-! ## The holder in GATHER or DECIDE (R53, R78) -/

/-- The context holds the entry, whose record is the copy. -/
def Holds (s : State) (k : RecordKind) (n : Nat) (copy : Copy) (o : CtxId) : Prop :=
  (∃ ws, s.entry k n = .valid copy (some o) ws) ∨ ∃ tainted, s.entry k n = .transient copy tainted o

section
variable {s : State} {k : RecordKind} {key : Key} {v : Version} {n : Nat} {copy : Copy} {o : CtxId} {x : Txn}

theorem tellHolder_moves (busy : s.txn o = some x) (active : x.state ≠ .commit) (books : ∀ p, x.request ≠ .account p) :
    tellHolder o s = [.regather o] := by
  have other : ¬ x.request.isAccount = true := by
    cases request : x.request with
    | account p => exact absurd request (books p)
    | _ => exact Bool.false_ne_true
  simp only [tellHolder, busy]
  exact if_neg (not_or.mpr ⟨active, other⟩)

/-- A notice for one held entry alone: FU and RC note it, and the holder regathers. -/
theorem taken_held (acts : Superseded s k key v n) (alone : ∀ m, m ≠ n → ¬ Superseded s k key v m)
    (held : Holds s k n copy o) (busy : s.txn o = some x) (active : x.state ≠ .commit) (books : ∀ p, x.request ≠ .account p) :
    taken k key v s = (noticed k key v n s, [.regather o]) := by
  have told : tellHolder o (noteInFills k key v s) = [.regather o] := tellHolder_moves busy active books
  have fills : noteInFills k key v s = { s with fu := (noteInFills k key v s).fu } := rfl
  rw [noteInFills_fu] at fills
  rw [taken_alone acts alone]
  rcases held with ⟨ws, e⟩ | ⟨tainted, e⟩
  · obtain ⟨named, below⟩ := (superseded_of_valid e).mp acts
    rw [noteInEntry_locked (s := noteInFills k key v s) e named below, told, noticed, e, fills]; rfl
  · obtain ⟨named, below⟩ := (superseded_of_transient e).mp acts
    rw [noteInEntry_transient (s := noteInFills k key v s) e named below, told, noticed, e, fills]; rfl

/-- The entry with its stale flag is emptied when its holder regathers (R73, R76). -/
theorem noticed_vacated (held : Holds s k n copy o) (busy : s.txn o = some x)
    (need : ∃ key', x.need k = some ⟨key', some n, true⟩) :
    Vacated (regather o (noticed k key v n s)).1 k n := by
  obtain ⟨key', need⟩ := need
  have released := released_regather (s := noticed k key v n s) busy
  have small : n < (s.pool k).entries.length := lt_of_entry (by
    rcases held with ⟨ws, e⟩ | ⟨tainted, e⟩ <;> rw [e] <;> nofun)
  have written := fun e => State.entry_setEntry
    ({ s with fu := (noteInFills k key v s).fu } : State) k n e small
  rw [noteInFills_fu] at written
  rcases held with ⟨ws, e⟩ | ⟨tainted, e⟩
  · have now : (noticed k key v n s).entry k n = .valid (marked copy v) (some o) ws := by
      rw [noticed, e]; exact written _
    exact .inl (released.stale _ _ _ _ _ need now (by rw [marked]; nofun)).1
  · have now : (noticed k key v n s).entry k n = .transient (marked copy v) tainted o := by
      rw [noticed, e]; exact written _
    exact .inl (released.owned _ _ _ _ _ need now).1

end

/-- Settles O33: the notice that finds nothing, its notes in the fills, the entries whose holders sit, the unlocked entry,
and the holder that regathers. -/
theorem invalidateActsOnEntriesAndFills : Obligations.InvalidateActsOnEntriesAndFills := by
  refine ⟨fun s kind key v listening idle => ?_, fun s k key v listening known service nobody => ?_,
    fun s k key v listening known => ?_, fun s k key v n copy listening known service queue e acts alone slots waiting => ?_,
    fun s k key v n copy o x listening known acts alone held busy active books need => ?_⟩
  · rw [exec_invalidate listening, takeInvalidate]
    rcases or_assoc.mpr idle with unknown | rfl
    · rw [ofCode_none unknown]
    · cases RecordKind.ofCode kind <;> rfl
  · have settled : exec (.invalidate k.code key v) s = .next (noteInFills k key v (counted s)) := by
      rw [exec_invalidate_taken listening known, taken_nothing (s := counted s) nobody,
        settle_nothing (s := noteInFills k key v (counted s)) service]
    refine ⟨fun slots waiting => by rw [settled, noteInFills_nothing (s := counted s) slots waiting],
      noteInFills k key v (counted s), settled, fun i => ?_, ?_⟩
    · rw [noteInFills_slot]
      simp only [raised_fill]; rfl
    · rw [noteInFills_fu]
      simp only [raised_waiting]; rfl
  · obtain ⟨slots, waiting⟩ := settle_taken_fills k key v (counted s)
    refine ⟨_, exec_invalidate_taken listening known, slots, waiting, fun n copy named below =>
      ⟨fun ws e => settle_taken_unlocked (s := counted s) e named below, fun o x ws e busy commits => ?_,
        fun o x tainted e busy kind => ?_⟩⟩
    · exact settle_taken_locked (s := counted s) e named below ⟨x, busy, .inl commits⟩
    · refine settle_taken_transient (s := counted s) e named below ⟨x, busy, kind.imp_right fun ⟨p, is⟩ => ?_⟩
      rw [is]; rfl
  · rw [exec_invalidate_taken listening known,
      settle_taken_empties (s := counted s) e acts alone (noteInFills_nothing (s := counted s) slots waiting) queue service]
  · intro r
    have is : exec (.invalidate k.code key v) s = .next (settle (noticed k key v n (counted s), [.regather o])) := by
      rw [exec_invalidate_taken listening known, taken_held (s := counted s) acts alone held busy active books]
    have follows := hushed_settled_regather o (noticed k key v n (counted s))
    have steady := steady_settled_regather o (noticed k key v n (counted s))
    refine ⟨_, is, settle_regather o _,
      vacated_settled_regather (noticed_vacated (s := counted s) held busy need),
      fun d other => regather_others (s := noticed k key v n (counted s)) busy follows other,
      fun kept limit => ?_, fun kept below running => ?_⟩
    · have ended := regather_limit_outcome (s := noticed k key v n (counted s)) busy follows steady kept limit
      exact ⟨ended.free, ended.counters⟩
    · obtain ⟨own, counters, lanes, -⟩ :=
        regather_running_outcome (s := noticed k key v n (counted s)) busy follows kept below running
      exact ⟨own, counters, lanes⟩

end Sys2Proof.Transactions

namespace Sys2Proof.RecordCache

open Sys2Proof Sys2Proof.Machine Sys2Proof.Safety Sys2Proof.KioskLanes Sys2Proof.Transactions

/-! ## Changes by which nothing new comes

Most of what the events of transactions do to the cache brings no key into it and makes no context busy: entries are
locked, passed on, marked and emptied, contexts join and leave lists, but no fill begins or ends (R64, R67, R70, R73). -/

/-- An entry takes no key that it did not hold, a FILLING one stays FILLING, and no context comes on its wait list twice. -/
structure NoNewKey (e e' : Entry) : Prop where
  found : ∀ key, e'.found key = true → e.found key = true
  filling : ∀ key ws, e = .filling key ws → ∃ ws', e' = .filling key ws'
  once : (waiters e).Nodup → (waiters e').Nodup

/-- So for each entry of a pool, whose size stays; the order of use is rearranged, and no context is queued twice. -/
structure NoNewIn (p q : Pool) : Prop where
  entries : ∀ n, NoNewKey (p.entry n) (q.entry n)
  size : q.entries.length = p.entries.length
  order : q.lru.Perm p.lru
  queue : p.queue.Nodup → q.queue.Nodup

/-- So for each pool; FU and the rule store stay, no FREE context becomes busy, and the unit does not become QUIESCED. -/
structure NoNew (s t : State) : Prop where
  pools : ∀ k, NoNewIn (s.pool k) (t.pool k)
  fu : t.fu = s.fu
  free : ∀ c, s.txn c = none → t.txn c = none
  store : t.rs = s.rs
  service : t.um.service = .quiesced → s.um.service = .quiesced

theorem NoNewKey.refl (e : Entry) : NoNewKey e e := ⟨fun _ => id, fun _ ws is => ⟨ws, is⟩, id⟩

theorem NoNewIn.refl (p : Pool) : NoNewIn p p := ⟨fun _ => .refl _, rfl, .refl _, id⟩

theorem NoNewIn.trans {p q r : Pool} (h : NoNewIn p q) (g : NoNewIn q r) : NoNewIn p r where
  entries n := by
    have first := h.entries n
    have then_ := g.entries n
    refine ⟨fun key is => first.found key (then_.found key is), fun key ws is => ?_, fun once => then_.once (first.once once)⟩
    obtain ⟨ws', is'⟩ := first.filling key ws is
    exact then_.filling key ws' is'
  size := g.size.trans h.size
  order := g.order.trans h.order
  queue once := g.queue (h.queue once)

theorem NoNew.refl (s : State) : NoNew s s := ⟨fun _ => .refl _, rfl, fun _ => id, rfl, id⟩

theorem NoNew.trans {s t u : State} (h : NoNew s t) (g : NoNew t u) : NoNew s u :=
  ⟨fun k => (h.pools k).trans (g.pools k), g.fu.trans h.fu, fun c free => g.free c (h.free c free),
    g.store.trans h.store, fun is => h.service (g.service is)⟩

/-- A change of the lanes, the link, the commit records, AU or UM's replies. -/
theorem NoNew.of_same {s t : State} (rc : t.rc = s.rc := by rfl) (fu : t.fu = s.fu := by rfl)
    (contexts : t.dct.contexts = s.dct.contexts := by rfl) (store : t.rs = s.rs := by rfl)
    (service : t.um.service = s.um.service := by rfl) : NoNew s t := by
  refine ⟨fun k => ?_, fu, fun c free => ?_, store, fun is => service ▸ is⟩
  · rw [show t.pool k = s.pool k from congrArg (Cache.pool · k) rc]; exact .refl _
  · rw [State.txn, State.ctx, contexts]; exact free

/-! ## Entries -/

theorem noNewKey_empty {e : Entry} (kept : ∀ key ws, e ≠ .filling key ws) : NoNewKey e .empty :=
  ⟨nofun, fun key ws is => absurd is (kept key ws), fun _ => List.nodup_nil⟩

theorem noNewKey_valid {copy copy' : Copy} {o o' : Option CtxId} {ws ws' : List CtxId} (key : copy'.key = copy.key)
    (once : ws.Nodup → ws'.Nodup) : NoNewKey (.valid copy o ws) (.valid copy' o' ws') :=
  ⟨fun _ is => by rwa [Entry.found, key] at is, nofun, once⟩

theorem noNewKey_transient {copy copy' : Copy} {tainted tainted' : Bool} {o o' : CtxId} :
    NoNewKey (.transient copy tainted o) (.transient copy' tainted' o') := ⟨nofun, nofun, id⟩

theorem nodup_joined (c : CtxId) {ws : List CtxId} (once : ws.Nodup) : (if c ∈ ws then ws else ws ++ [c]).Nodup := by
  split
  · exact once
  · next off => exact List.nodup_append.mpr ⟨once, List.nodup_singleton c, fun a mem b is same => off (by simp_all)⟩

theorem noNewKey_addWaiter (c : CtxId) (e : Entry) : NoNewKey e (e.addWaiter c) := by
  cases e with
  | empty => exact .refl _
  | transient copy tainted o => exact .refl _
  | filling key ws => exact ⟨fun _ => id, fun _ _ is => by cases is; exact ⟨_, rfl⟩, nodup_joined c⟩
  | valid copy o ws => exact noNewKey_valid rfl (nodup_joined c)

theorem noNewKey_dropWaiter (c : CtxId) (e : Entry) : NoNewKey e (e.dropWaiter c) := by
  cases e with
  | empty => exact .refl _
  | transient copy tainted o => exact .refl _
  | filling key ws => exact ⟨fun _ => id, fun _ _ is => by cases is; exact ⟨_, rfl⟩, .filter _⟩
  | valid copy o ws => exact noNewKey_valid rfl (.filter _)

/-! ## Pools -/

section
variable (p : Pool) (n : Nat) (c : CtxId)

variable {p n} in
theorem noNewIn_setEntry {e : Entry} (h : NoNewKey (p.entry n) e) : NoNewIn p (p.setEntry n e) := by
  refine ⟨fun m => ?_, List.length_set, .refl _, id⟩
  unfold Pool.entry Pool.setEntry at *
  simp only [List.getD_eq_getElem?_getD, List.getElem?_set] at *
  split
  · next same =>
    subst same
    split
    · exact h
    · next beyond => simp [NoNewKey.refl, beyond]
  · exact .refl _

theorem touch_order : (p.touch n).lru.Perm p.lru := by
  unfold Pool.touch; dsimp only; split
  · next mem => exact List.perm_append_comm.trans (List.perm_cons_erase mem).symm
  · exact .refl _

theorem noNewIn_touch : NoNewIn p (p.touch n) := ⟨fun _ => .refl _, rfl, touch_order p n, id⟩

theorem noNewIn_leaveQueue : NoNewIn p (p.leaveQueue c) := ⟨fun _ => .refl _, rfl, .refl _, .filter _⟩

theorem noNewIn_joinQueue : NoNewIn p (p.joinQueue c) := by
  have queue : (p.joinQueue c).queue = if c ∈ p.queue then p.queue else p.queue ++ [c] := by
    unfold Pool.joinQueue; split <;> rfl
  have rest : (p.joinQueue c).entries = p.entries ∧ (p.joinQueue c).lru = p.lru := by
    unfold Pool.joinQueue; split <;> exact ⟨rfl, rfl⟩
  refine ⟨fun m => ?_, congrArg List.length rest.1, by rw [rest.2], fun once => by rw [queue]; exact nodup_joined c once⟩
  rw [show (p.joinQueue c).entry m = p.entry m from congrArg (List.getD · m Entry.empty) rest.1]; exact .refl _

theorem noNewIn_dropWaiter : NoNewIn p (p.dropWaiter c) := by
  refine ⟨fun m => ?_, List.length_map _, .refl _, .filter _⟩
  rw [show (p.dropWaiter c).entry m = (p.entry m).dropWaiter c from List.getD_map p.entries Entry.empty (Entry.dropWaiter c)]
  exact noNewKey_dropWaiter c _

end

/-! ## Single updates of the state -/

theorem noNew_setPool {s : State} {k : RecordKind} {p : Pool} (h : NoNewIn (s.pool k) p) : NoNew s (s.setPool k p) := by
  refine ⟨fun l => ?_, rfl, fun _ => id, rfl, id⟩
  by_cases same : k = l
  · subst same; rw [State.pool_setPool]; exact h
  · rw [State.pool_setPool_ne s p same]; exact .refl _

theorem noNew_setEntry {s : State} {k : RecordKind} {n : Nat} {e : Entry} (h : NoNewKey (s.entry k n) e) :
    NoNew s (s.setEntry k n e) := noNew_setPool (noNewIn_setEntry h)

theorem noNew_touch (s : State) (k : RecordKind) (n : Nat) : NoNew s (s.touch k n) := noNew_setPool (noNewIn_touch _ n)

theorem noNew_leaveLists (c : CtxId) (s : State) : NoNew s (leaveLists c s) :=
  ⟨fun k => by cases k <;> exact noNewIn_dropWaiter _ c, rfl, fun _ => id, rfl, id⟩

/-- The transaction of a busy context changes or ends. -/
theorem noNew_setTxn {s : State} {c : CtxId} (busy : s.txn c ≠ none) (new : Option Txn) : NoNew s (s.setTxn c new) := by
  refine ⟨fun _ => .refl _, rfl, fun d free => ?_, rfl, id⟩
  rwa [State.txn_setTxn_ne s new (d := d) fun same => busy (by rw [same]; exact free)]

theorem noNew_mapTxn (s : State) (c : CtxId) (f : Txn → Txn) : NoNew s (s.mapTxn c f) :=
  ⟨fun _ => .refl _, rfl, fun d => State.txn_mapTxn_none s c d f, rfl, id⟩

theorem noNew_foldl {α : Type} {f : State → α → State} (h : ∀ s a, NoNew s (f s a)) (l : List α) (s : State) :
    NoNew s (l.foldl f s) := by
  induction l generalizing s with
  | nil => exact .refl s
  | cons a l ih => exact (h s a).trans (ih _)

theorem noNew_answer (q c : Octet) (r : ResultCode) (fs : List Octet) (s : State) : NoNew s (answer q c r fs s) := by
  unfold answer pumpReplies; split <;> exact .of_same

/-! ## Releases (R73, R76) -/

theorem not_filling_of_heldBy {c : CtxId} {e : Entry} (held : HeldBy c e) (key : Key) (ws : List CtxId) :
    e ≠ .filling key ws := by rintro rfl; exact held

section
variable (c : CtxId) (x : Txn) (k : RecordKind) (s : State)

theorem noNew_releaseEntry (n : Nat) : NoNew s (releaseEntry c k n s).1 := by
  rcases releaseEntry_cases c k n s with ⟨-, e⟩ | ⟨emptied, ts, e⟩ | ⟨copy, was, e⟩ | ⟨copy, w, rest, was, e⟩ <;> rw [e]
  · exact .refl s
  · exact (noNew_setEntry (noNewKey_empty (not_filling_of_heldBy emptied.held))).trans
      (noNew_foldl (fun s w => noNew_mapTxn s w _) _ _)
  · exact noNew_setEntry (by rw [was]; exact noNewKey_valid rfl id)
  · refine ((noNew_setEntry ?_).trans (noNew_touch _ k n)).trans (noNew_mapTxn _ w _)
    rw [was]; exact noNewKey_valid rfl List.Nodup.of_cons

theorem noNew_releaseNeed : NoNew s (releaseNeed c x k s).1 := by
  unfold releaseNeed; split
  · exact noNew_releaseEntry c k s _
  · exact .refl s

theorem noNew_releaseLock : NoNew s (releaseLock c x k s).1 := by
  unfold releaseLock; split
  · exact .refl s
  · exact noNew_releaseNeed c x k s

theorem noNew_releaseAll : NoNew s (releaseAll c x s).1 :=
  have lock := noNew_releaseLock c x
  have need := noNew_releaseNeed c x
  (((lock _ _).trans (lock _ _)).trans (lock _ _)).trans (((need _ _).trans (need _ _)).trans (need _ _))

end

/-! ## The ends of contexts (R53, R57, R59) -/

section
variable {c : CtxId} {s : State}

theorem noNew_letGo (busy : s.txn c ≠ none) (x : Txn) (new : Option Txn) :
    NoNew s (releaseAll c x (offLists c s new)).1 :=
  ((noNew_leaveLists c s).trans (noNew_setTxn (s := leaveLists c s) busy new)).trans (noNew_releaseAll c x _)

theorem noNew_replied (x : Txn) (code : ResultCode) (fields : List Octet) (s : State) :
    NoNew s (replied x code fields s) := by unfold replied; split <;> exact .of_same

variable (c s)

theorem noNew_freeCtx : NoNew s (freeCtx c s).1 := by
  cases busy : s.txn c with
  | none => rw [freeCtx, busy]; exact .refl s
  | some x => rw [freeCtx_busy busy]; exact noNew_letGo (by rw [busy]; nofun) x none

theorem noNew_endCtx (code : ResultCode) (fields : List Octet) : NoNew s (endCtx c code fields s).1 := by
  cases busy : s.txn c with
  | none => rw [endCtx, busy]; exact .refl s
  | some x =>
    rw [endCtx_busy busy]
    exact (noNew_replied x code fields s).trans (noNew_letGo (by rw [replied_txn, busy]; nofun) x none)

theorem noNew_regather : NoNew s (regather c s).1 := by
  cases busy : s.txn c with
  | none => rw [regather, busy]; exact .refl s
  | some x =>
  have letGo := noNew_letGo (c := c) (s := s) (by rw [busy]; nofun) x
  cases kept : x.abandoned with
  | true => rw [regather_abandoned busy kept]; exact letGo none
  | false =>
  by_cases limit : 2 ≤ x.regathers
  · rw [regather_limit busy kept limit]; exact noNew_endCtx c s _ _
  have below := Nat.not_le.mp limit
  have back : NoNew s (again c x s) := (letGo _).trans .of_same
  cases deadline : x.deadline with
  | running => rw [regather_running busy kept below deadline]; exact back
  | passed => rw [(regather_passed busy kept below deadline).1]; exact back.trans (noNew_endCtx c _ _ _)

theorem noNew_abortCtx : NoNew s (abortCtx c s).1 := by
  unfold abortCtx
  split
  · exact .refl s
  next x busy =>
  split
  · exact noNew_freeCtx c s
  · exact noNew_freeCtx c s
  · exact noNew_setTxn (by rw [busy]; nofun) _

theorem noNew_abortWhere (test : Txn → Bool) (cs : List CtxId) : NoNew s (abortWhere test cs s).1 := by
  induction cs generalizing s with
  | nil => exact .refl s
  | cons c cs ih =>
    unfold abortWhere; split
    · exact (noNew_abortCtx c s).trans (ih _)
    · exact ih s

theorem noNew_endEach (code : ResultCode) (cs : List CtxId) : NoNew s (endEach code cs s).1 := by
  induction cs generalizing s with
  | nil => exact .refl s
  | cons c cs ih => exact (noNew_endCtx c s code []).trans (ih _)

end

/-! ## The steps of GATHER but for the lookup (R48, R50, R51, R60) -/

section
variable {c : CtxId} {s : State} (busy : s.txn c ≠ none)
include busy

theorem noNew_enterDecide (x : Txn) : NoNew s (enterDecide c x s) := (noNew_setTxn busy _).trans .of_same

theorem noNew_resettle (x : Txn) (item : Image) : NoNew s (resettle c x item s).1 :=
  (((noNew_setTxn busy _).trans (noNew_releaseLock c x .patron _)).trans
    (noNew_releaseNeed c x .title _)).trans (noNew_releaseLock c x .item _)

theorem noNew_allLocked (x : Txn) : NoNew s (allLocked c x s).1 := by
  unfold allLocked; repeat' split
  · exact noNew_enterDecide busy x
  · exact noNew_resettle busy x _
  · exact noNew_setTxn busy _
  · exact noNew_enterDecide busy x

theorem noNew_copyPatron (x : Txn) : NoNew s (copyPatron c x s).1 := by
  unfold copyPatron; repeat' split
  · exact (noNew_touch s .patron _).trans (noNew_enterDecide (s := s.touch .patron _) busy _)
  · exact noNew_setTxn busy _
  · exact .refl s

theorem noNew_requestLock (x : Txn) (k : RecordKind) (key : Key) (n : Nat) :
    NoNew s (requestLock c x k key n s).1 := by
  have told := fun new => noNew_setTxn busy (new : Option Txn)
  unfold requestLock; dsimp only
  split
  · next copy o ws e =>
    split
    · exact told _
    split
    · refine ((told _).trans (noNew_setEntry ?_)).trans (noNew_touch _ k n)
      rw [show (s.setTxn c _).entry k n = s.entry k n from rfl, e]
      exact noNewKey_valid rfl id
    split
    · exact told _
    · refine noNew_setEntry ?_
      rw [e]; exact noNewKey_addWaiter c _
  · split <;> exact told _
  · exact told _
  · exact told _

end

end Sys2Proof.RecordCache

namespace Sys2Proof.RecordCache

open Sys2Proof Sys2Proof.Machine Sys2Proof.Safety Sys2Proof.KioskLanes Sys2Proof.Transactions

/-! ## Notices, commits and decisions bring nothing new (R77, R80, R112, R113, R115, R137, R140) -/

theorem writeThrough_key (copy : Copy) (image : Image) (v : Version) : (copy.writeThrough image v).key = copy.key := rfl

theorem notice_key (copy : Copy) (v : Version) : (copy.notice v).key = copy.key := by
  unfold Copy.notice Copy.noteVersion; repeat' split
  all_goals rfl

theorem forceStale_key (copy : Copy) : copy.forceStale.key = copy.key := by
  unfold Copy.forceStale; split <;> rfl

section
variable (s : State)

theorem noNew_noteInEntry (k : RecordKind) (key : Key) (v : Version) (n : Nat) : NoNew s (noteInEntry k key v n s).1 := by
  unfold noteInEntry
  split
  · next copy owner ws e =>
    repeat' split
    · refine noNew_setEntry ?_
      rw [e]; exact noNewKey_empty nofun
    · refine noNew_setEntry ?_
      rw [e]; exact noNewKey_valid (notice_key copy v) id
    · exact .refl s
  · next copy tainted o e =>
    split
    · refine noNew_setEntry ?_
      rw [e]; exact noNewKey_transient
    · exact .refl s
  · exact .refl s
  · exact .refl s

theorem noNew_noteInEntries (k : RecordKind) (key : Key) (v : Version) (ns : List Nat) :
    NoNew s (noteInEntries k key v ns s).1 := by
  induction ns generalizing s with
  | nil => exact .refl s
  | cons n ns ih => exact (noNew_noteInEntry s k key v n).trans (ih _)

variable (c : CtxId)

theorem noNew_mapHeldCopy (k : RecordKind) (n : Nat) {f : Copy → Copy} (keeps : ∀ copy, (f copy).key = copy.key) :
    NoNew s (mapHeldCopy c k n f s) := by
  unfold mapHeldCopy
  split
  · next copy o ws e =>
    split
    · refine noNew_setEntry ?_
      rw [e]; exact noNewKey_valid (keeps copy) id
    · exact .refl s
  · next copy tainted o e =>
    split
    · refine noNew_setEntry ?_
      rw [e]; exact noNewKey_transient
    · exact .refl s
  · exact .refl s

theorem noNew_applyEntry (e : UpdateEntry) (v : Version) : NoNew s (applyEntry c e v s) := by
  unfold applyEntry; repeat' split
  · exact .refl s
  · exact (noNew_mapHeldCopy s c _ _ fun copy => writeThrough_key copy _ v).trans (noNew_touch _ _ _)
  · exact .refl s

theorem noNew_applyEntries (es : List (UpdateEntry × Version)) : NoNew s (applyEntries c es s) := by
  induction es generalizing s with
  | nil => exact .refl s
  | cons e es ih => exact (noNew_applyEntry s c e.1 e.2).trans (ih _)

theorem noNew_staleEntries (es : List (UpdateEntry × Version)) : NoNew s (staleEntries c es s) := by
  induction es generalizing s with
  | nil => exact .refl s
  | cons e es ih => exact (noNew_mapHeldCopy s c _ _ fun copy => notice_key copy e.2).trans (ih _)

theorem noNew_timeoutEntries (es : List UpdateEntry) : NoNew s (timeoutEntries c es s) := by
  induction es generalizing s with
  | nil => exact .refl s
  | cons e es ih => exact (noNew_mapHeldCopy s c _ _ forceStale_key).trans (ih _)

theorem noNew_takeOutcome : NoNew s (takeOutcome c s) :=
  NoNew.trans .of_same (noNew_mapTxn (s.setCommitRec c { s.commitRec c with timerRunning := false, owed := none }) c _)

theorem noNew_readHeld (x : Txn) : NoNew s (readHeld x s) := by
  unfold readHeld; split
  · exact .refl s
  · refine noNew_foldl (fun s k => ?_) _ s
    unfold touchRead; split
    · exact noNew_touch s _ _
    · exact .refl s

theorem noNew_offerUpdate (f : Frame) : NoNew s (offerUpdate c f s) := by
  unfold offerUpdate; dsimp only; split <;> exact .of_same

theorem noNew_queueUpdate (x : NewImages) (code : ResultCode) (fields : List Octet) :
    NoNew s (queueUpdate c x code fields s) := by
  unfold queueUpdate; split
  · exact .refl s
  · next busy =>
    exact (noNew_setTxn (by rw [busy]; nofun) _).trans (noNew_offerUpdate _ c _)

theorem noNew_blockAvailable (b : BlockId) : NoNew s (blockAvailable b s) :=
  (noNew_foldl (fun s c => noNew_mapTxn s c fun x => { x with ruleWait := none }) _ s).trans .of_same

end

/-! ## What tasks keep (R64-R67, R85)

The one way in which a context that goes on brings a key into the cache is a lookup that allocates an entry and gives FU
its fill. -/

/-- A property that tasks keep: it is kept where nothing new comes, and by an allocation for a busy context. -/
structure TasksKept (P : State → Prop) : Prop where
  noNew : ∀ {s t}, P s → NoNew s t → P t
  allocates : ∀ {c k key n s}, P s → s.txn c ≠ none → (s.pool k).find key = none → (s.pool k).room = some n →
    P (giveFill ⟨k, n, key, 0⟩ (allocated c k key n s))

namespace TasksKept

variable {P : State → Prop} (kept : TasksKept P)
include kept

theorem lookup {c : CtxId} {s : State} (h : P s) (busy : s.txn c ≠ none) (k : RecordKind) (key : Key) :
    P (Machine.lookup c k key s).1 := by
  unfold Machine.lookup; dsimp only; split
  · next n _ =>
    split
    · exact kept.noNew h (noNew_setPool ((noNewIn_touch _ n).trans (noNewIn_leaveQueue _ c)))
    · exact kept.noNew h (noNew_setPool
        ((noNewIn_setEntry (noNewKey_addWaiter c _)).trans (noNewIn_leaveQueue _ c)))
  next absent =>
  split
  · next n room =>
    rw [allocated_eq]
    exact kept.allocates h busy absent room
  · exact kept.noNew h (noNew_setPool (noNewIn_joinQueue _ c))

/-- A context that goes on, by the step of GATHER that comes next. -/
theorem resumeCtx {s : State} (h : P s) (c : CtxId) : P (Machine.resumeCtx c s).1 := by
  unfold Machine.resumeCtx
  split
  · exact h
  next x is =>
  have busy : s.txn c ≠ none := by rw [is]; nofun
  have told := fun new => kept.noNew h (noNew_setTxn busy new)
  split
  · exact h
  split
  · split <;> exact told _
  split
  · next k key _ =>
    have found : P (Machine.lookup c k key s).1 := kept.lookup h busy k key
    obtain ⟨y, busy', -⟩ := txn_of_card ((hushed_lookup c k key s).cards c) is
    split
    · next s' n e =>
      rw [e] at found busy'
      exact kept.noNew found (noNew_setTxn (by rw [busy']; nofun) _)
    · next s' e => rw [e] at found; exact found
  split
  · exact kept.noNew h (noNew_copyPatron busy x)
  split
  · exact kept.noNew h (noNew_requestLock busy x _ _ _)
  · exact kept.noNew h (noNew_allLocked busy x)

theorem doTask {s : State} (h : P s) (t : Task) : P (Machine.doTask t s).1 := by
  cases t with
  | resume c => exact kept.resumeCtx h c
  | retry k => exact h
  | regather c => exact kept.noNew h (noNew_regather c s)

theorem runTasks (fuel : Nat) (ts : List Task) {s : State} (h : P s) : P (Machine.runTasks fuel ts s) := by
  induction fuel generalizing ts s with
  | zero => exact h
  | succ n ih =>
    cases ts with
    | nil => exact h
    | cons t ts => exact ih _ (kept.doTask h t)

theorem offerRoom (k : RecordKind) {s : State} (h : P s) : P (Machine.offerRoom k s) := kept.runTasks _ _ h

end TasksKept

/-! ## The idle unit (R189) -/

theorem unitIdle_iff (s : State) : unitIdle s = true ↔ Idle s := by
  have busy : busyContexts s = 0 ↔ ∀ c, s.txn c = none := by
    rw [busyContexts, List.countP_eq_zero]
    exact ⟨fun h c => by simpa using h c (mem_allContexts c), fun h c _ => by simp [h c]⟩
  have slots : slotsInUse s = 0 ↔ ∀ i, (s.slot i).fill = none := by
    rw [slotsInUse, List.countP_eq_zero]
    exact ⟨fun h i => by simpa using h i (mem_allSlots i), fun h i _ => by simp [h i]⟩
  simp only [unitIdle, Bool.and_eq_true, decide_eq_true_eq, busy, slots, List.isEmpty_iff, Idle, and_assoc]

/-- An idle unit stays idle where nothing new comes. -/
theorem idle_of_noNew {s t : State} (h : NoNew s t) (idle : Idle s) : Idle t := by
  obtain ⟨free, slots, waiting⟩ := idle
  refine ⟨fun c => h.free c (free c), fun i => ?_, by rw [h.fu]; exact waiting⟩
  rw [State.slot, h.fu]; exact slots i

end Sys2Proof.RecordCache

namespace Sys2Proof.RecordCache

open Sys2Proof Sys2Proof.Machine Sys2Proof.Safety Sys2Proof.KioskLanes Sys2Proof.Transactions

/-! ## What every step does to the cache, the fills and the rule store -/

/-- The entry a fill is for, and its key. -/
def place (f : Fill) : RecordKind × Nat × Key := (f.kind, f.entry, f.key)

/-- The entry a waiting fill is for, and its key. -/
def waitingPlace (w : WaitingFill) : RecordKind × Nat × Key := (w.kind, w.entry, w.key)

/-- FU has the same fills, for the same entries and keys, in the same slots and places of the waiting list. -/
structure SameFills (s t : State) : Prop where
  slots : ∀ i, (t.slot i).fill.map place = (s.slot i).fill.map place
  waiting : t.fu.waiting.map waitingPlace = s.fu.waiting.map waitingPlace

/-- What a fill for the key leaves of its FILLING entry: the record VALID or TRANSIENT, or nothing (R93, R94, R103). -/
def Filled (key : Key) : Entry → Prop
  | .empty | .transient .. => True
  | .valid copy _ ws => copy.key = key ∧ ws = []
  | .filling .. => False

/-- A property that every step keeps. `P none` is the property itself; `P (some i)` is what remains of it while slot `i`
still holds a fill whose entry has had its outcome already (R93, R96, R103). -/
structure CacheKept (P : Option SlotId → State → Prop) : Prop where
  tasks : ∀ x, TasksKept (P x)
  fills : ∀ {s fu}, P none s → SameFills s { s with fu := fu } → P none { s with fu := fu }
  outcome : ∀ {i f e s}, P none s → (s.slot i).fill = some f → Filled f.key e →
    P (some i) (s.setEntry f.kind f.entry e)
  finishes : ∀ {i s}, P (some i) s → P none (finishSlot i s)
  accepts : ∀ {c x s}, P none s → s.um.service = .normal → P none (s.setCtx c x)
  quiesces : ∀ {s um}, P none s → Idle s → P none { s with um := um }
  store : ∀ {s r}, P none s → (StoreShape s → StoreShape { s with rs := r }) → P none { s with rs := r }
  flushes : ∀ {s}, P none s → s.um.service = .quiesced →
    P none { s with rc := ⟨s.rc.patron.flush, s.rc.title.flush, s.rc.item.flush⟩ }
  reset : ∀ phase straps cause s, P none s → P none (resetAll phase straps cause s)

theorem sameFills_setSlot {s : State} {i : SlotId} {x : FillSlot} (same : x.fill.map place = (s.slot i).fill.map place) :
    SameFills s (s.setSlot i x) := by
  refine ⟨fun j => ?_, rfl⟩
  by_cases own : i = j
  · subst own; rw [State.slot_setSlot, same]
  · rw [State.slot_setSlot_ne s x own]

theorem sameFills_noteInFills (k : RecordKind) (key : Key) (v : Version) (s : State) :
    SameFills s (noteInFills k key v s) := by
  refine ⟨fun i => ?_, ?_⟩
  · rw [noteInFills_slot, Option.map_map]; rfl
  · rw [noteInFills_fu, List.map_map]; rfl

theorem liveSlot_fill {tag : Tag} {s : State} {i : SlotId} {f : Fill} (h : liveSlot tag s = some (i, f)) :
    (s.slot i).fill = some f := by
  unfold liveSlot at h
  split at h
  · dsimp only at h
    split at h
    · next g fill =>
      split at h
      · obtain ⟨rfl, rfl⟩ := Prod.mk.inj (Option.some.inj h)
        exact fill
      · cases h
    · cases h
  · cases h

/-- A context is accepted only while the service state is NORMAL (R43). -/
theorem normal_of_acceptance {i : LaneId} {d : DropId} {kind tag : Octet} {payload : List Octet} {c : CtxId}
    {req : Request} {s : State} (h : acceptance i d kind tag payload s = .ok (c, req)) : s.um.service = .normal := by
  unfold acceptance at h
  split at h
  · cases h
  split at h
  · cases h
  · next normal => exact not_not.mp normal

namespace CacheKept

variable {P : Option SlotId → State → Prop} (kept : CacheKept P)
include kept

theorem noNew {s t : State} (h : P none s) (new : NoNew s t) : P none t := (kept.tasks none).noNew h new

/-- A change of the lanes, the link, the commit records, AU or UM's replies. -/
theorem same {s t : State} (h : P none s) (rc : t.rc = s.rc := by rfl) (fu : t.fu = s.fu := by rfl)
    (contexts : t.dct.contexts = s.dct.contexts := by rfl) (store : t.rs = s.rs := by rfl)
    (service : t.um.service = s.um.service := by rfl) : P none t := kept.noNew h (.of_same rc fu contexts store service)

theorem answered {s : State} (h : P none s) (q c : Octet) (r : ResultCode) (fs : List Octet) :
    P none (answer q c r fs s) := kept.noNew h (noNew_answer q c r fs s)

theorem settleQuiesce {s : State} (h : P none s) : P none (Machine.settleQuiesce s) := by
  unfold Machine.settleQuiesce
  split
  · next idle =>
    have quiesced := fun um => kept.quiesces (um := um) h ((unitIdle_iff s).mp idle.2)
    dsimp only; split
    · exact kept.answered (quiesced _) _ _ _ _
    · exact quiesced _
  · exact h

/-- An event carried to its end. -/
theorem settle {r : State × List Task} (h : P none r.1) : P none (Machine.settle r) :=
  kept.settleQuiesce ((kept.tasks none).runTasks _ _ h)

theorem settled {s : State} (h : P none s) {r : State × List Task} (new : NoNew s r.1) : P none (Machine.settle r) :=
  kept.settle (kept.noNew h new)

/-! ### Fills (R85-R103) -/

theorem setSlot {s : State} (h : P none s) {i : SlotId} {x : FillSlot}
    (same : x.fill.map place = (s.slot i).fill.map place) : P none (s.setSlot i x) :=
  kept.fills (fu := (s.setSlot i x).fu) h (sameFills_setSlot same)

theorem fetchDue {s : State} (h : P none s) (i : SlotId) (a b : Nat) : P none (Machine.fetchDue i a b s) := by
  unfold Machine.fetchDue; dsimp only
  split
  · exact h
  next f fill =>
  split
  · exact kept.setSlot h (by rw [fill]; rfl)
  · exact kept.same (kept.setSlot (i := i) (x := { s.slot i with fill := some { f with owed := none }, onLine := true }) h
      (by rw [fill]; rfl))

theorem restartFill {s : State} (h : P none s) {i : SlotId} {f : Fill} (fill : (s.slot i).fill = some f) :
    P none (Machine.restartFill i f s) := by
  unfold Machine.restartFill
  exact kept.fetchDue (kept.setSlot h (by rw [fill]; rfl)) _ _ _

theorem endBurst {s : State} (h : P none s) (i : SlotId) (f : Fill) : P none (Machine.endBurst i f s) :=
  kept.fetchDue h i _ _

theorem completeFill {s : State} (h : P none s) {i : SlotId} {f : Fill} (fill : (s.slot i).fill = some f)
    (v : Version) (keep : Bool) : P none (Machine.completeFill i f v keep s).1 := by
  have tasks := kept.tasks (some i)
  let copy : Copy := ⟨f.key, v, f.image, none⟩
  have emptied := kept.outcome (e := .empty) h fill trivial
  have valid := kept.outcome (e := .valid copy none []) h fill ⟨rfl, rfl⟩
  have owned := fun tainted w => kept.outcome (e := .transient copy tainted w) h fill trivial
  have touched := fun {u} (g : P (some i) u) => tasks.noNew g (noNew_touch u f.kind f.entry)
  unfold Machine.completeFill; dsimp only; split
  · exact kept.finishes (tasks.offerRoom _ (touched valid))
  · exact kept.finishes (tasks.noNew (touched valid) (noNew_foldl (fun s w => noNew_mapTxn s w _) _ _))
  · exact kept.finishes (tasks.offerRoom _ emptied)
  · exact kept.finishes (tasks.noNew (touched (owned _ _)) (noNew_mapTxn _ _ _))

theorem failFill {s : State} (h : P none s) {i : SlotId} {f : Fill} (fill : (s.slot i).fill = some f)
    (code : ResultCode) : P none (Machine.failFill i f code s).1 := by
  have ended := noNew_endEach s code (fillWaiters f.kind f.entry s)
  refine kept.finishes ((kept.tasks (some i)).offerRoom _ (kept.outcome (kept.noNew h ended) ?_ trivial))
  rw [State.slot, ended.fu]; exact fill

theorem takeSegment {s : State} (h : P none s) (tag : Tag) (kind : Octet) (key : Key) (v : Version)
    (index flags : Octet) (data : List Octet) : P none (Machine.takeSegment tag kind key v index flags data s) := by
  unfold Machine.takeSegment
  split
  · exact kept.same h
  next i f live =>
  have fill := liveSlot_fill live
  split
  · exact kept.same h
  split
  · exact kept.restartFill h fill
  split
  · dsimp only; split
    · exact kept.endBurst (s := s.countLink _) (kept.same h) i f
    · exact kept.same h
  · have held : ∀ received version, P none (setFill i { f with received := received, version := version } s) :=
      fun _ _ => kept.setSlot h (by rw [fill]; rfl)
    dsimp only; split
    · exact kept.settle (kept.completeFill (held _ _) (by rw [setFill, State.slot_setSlot]) _ _)
    split
    · exact kept.endBurst (held _ _) i _
    · exact held _ _

theorem takeAbsent {s : State} (h : P none s) (tag : Tag) : P none (Machine.takeAbsent tag s) := by
  unfold Machine.takeAbsent
  split
  · next i f live =>
    split
    · exact kept.settle (kept.failFill h (liveSlot_fill live) _)
    · exact kept.same h
  · exact kept.same h

theorem takeDefer {s : State} (h : P none s) (tag : Tag) (code : Octet) : P none (Machine.takeDefer tag code s) := by
  unfold Machine.takeDefer
  split
  · next i f live =>
    have fill := liveSlot_fill live
    repeat' split
    · exact kept.same h
    · exact kept.settle (kept.failFill h fill _)
    · exact kept.setSlot h (by rw [fill]; rfl)
  · exact kept.same h

theorem takeInvalidate {s : State} (h : P none s) (kind : Octet) (key : Key) (v : Version) :
    P none (Machine.takeInvalidate kind key v s) := by
  unfold Machine.takeInvalidate
  split
  · exact h
  next k _ =>
  split
  · exact h
  · have noted : P none (noteInFills k key v s) :=
      kept.fills (fu := (noteInFills k key v s).fu) h (sameFills_noteInFills k key v s)
    exact kept.settled noted (noNew_noteInEntries _ k key v _)

theorem endDelay {s : State} (h : P none s) (i : SlotId) : P none (Machine.endDelay i s) := by
  unfold Machine.endDelay; split
  · next f fill =>
    split
    · exact kept.restartFill h fill
    · exact h
  · exact h

theorem fetchTimerOut {s : State} (h : P none s) (i : SlotId) : P none (Machine.fetchTimerOut i s) := by
  unfold Machine.fetchTimerOut; split
  · next f fill =>
    split
    · exact kept.settle (kept.failFill h fill _)
    · exact h
  · exact h

/-! ### Commits and decisions (R55, R111-R115, R137) -/

theorem takeResult {s : State} (h : P none s) (tag : Tag) (a o : Octet) (vs : List Version) :
    P none (Machine.takeResult tag a o vs s) := by
  unfold Machine.takeResult
  split
  · exact kept.same h
  next c out r _ =>
  have taken := noNew_takeOutcome s c
  dsimp only
  split
  · exact kept.settled h ((taken.trans (noNew_applyEntries _ c _)).trans (noNew_endCtx c _ _ _))
  · exact kept.settled h ((taken.trans (noNew_staleEntries _ c _)).trans (noNew_regather c _))
  · exact kept.settled h (taken.trans (noNew_endCtx c _ _ _))

theorem commitTimerOut {s : State} (h : P none s) (c : CtxId) : P none (Machine.commitTimerOut c s) := by
  unfold Machine.commitTimerOut; repeat' split
  · exact kept.settled h (((noNew_takeOutcome s c).trans (noNew_timeoutEntries _ c _)).trans (noNew_endCtx c _ _ _))
  all_goals exact h

theorem deadlineFalls {s : State} (h : P none s) (c : CtxId) : P none (Machine.deadlineFalls c s) := by
  unfold Machine.deadlineFalls
  split
  · exact h
  next x busy =>
  split
  · exact kept.settled h (noNew_endCtx c s _ _)
  · exact kept.settled h (noNew_endCtx c s _ _)
  · exact kept.noNew h (noNew_setTxn (by rw [busy]; nofun) _)

theorem applyDecision {s : State} (h : P none s) {c : CtxId} (busy : s.txn c ≠ none) (x : Txn) (d : Decision) :
    P none (Machine.applyDecision c x d s) := by
  have read := noNew_readHeld s x
  have still : (readHeld x s).txn c ≠ none := by
    obtain ⟨r, is⟩ := imagesRead_cache x s
    rw [readHeld_eq, is]; exact busy
  unfold Machine.applyDecision; dsimp only; split
  · exact kept.settled h (read.trans (noNew_endCtx c _ _ _))
  · exact kept.settled h (read.trans (noNew_endCtx c _ _ _))
  · exact kept.noNew h (read.trans (noNew_queueUpdate _ c _ _ _))
  · exact kept.noNew h (read.trans ((noNew_setTxn still _).trans .of_same))

theorem takeDecision {s : State} (h : P none s) (f : CtxId → Txn → State → Option Decision) :
    P none (Machine.takeDecision f s) := by
  have taken : ∀ rest, P none { s with au := { s.au with list := rest } } := fun _ => kept.same h
  unfold Machine.takeDecision
  split
  · exact h
  next c rest _ =>
  split
  · exact h
  next x busy =>
  split
  · exact h
  · exact kept.applyDecision (taken rest) (fun free => nomatch busy.symm.trans free) x _

/-! ### The end of a transmission (R33) -/

theorem frameSent {s : State} (h : P none s) (f : Frame) : P none (Machine.frameSent f s) := by
  cases f with
  | relayUp | unitStarted => exact h
  | mgmtReply => unfold Machine.frameSent pumpReplies; dsimp only; split <;> exact kept.same h
  | update c => unfold Machine.frameSent; dsimp only; split <;> exact kept.same h
  | fetch i =>
    have clear : P none (s.setSlot i { s.slot i with onLine := false }) := kept.setSlot h rfl
    unfold Machine.frameSent; dsimp only; repeat' split
    · exact kept.fetchDue clear _ _ _
    · exact clear
    · exact clear

theorem endFrame {s : State} (h : P none s) : P none (Machine.endFrame s) := by
  unfold Machine.endFrame; dsimp only; split
  · exact h
  · exact kept.frameSent (s := { s with bli := _ }) (kept.same h) _

/-! ### Lanes (R5, R10, R40, R47) -/

theorem abort {s : State} (h : P none s) (test : Txn → Bool) (cs : List CtxId) :
    P none (Machine.settle (abortWhere test cs s)) := kept.settled h (noNew_abortWhere s test cs)

theorem laneAbort {s : State} (h : P none s) (i : LaneId) (f : Lane → Lane) : P none (Machine.laneAbort i f s) :=
  kept.same (kept.abort (kept.same (t := s.mapLane i Lane.abort) h) _ allContexts)

theorem dispatch {s : State} (h : P none s) (i : LaneId) (d : DropId) (body : List Octet) :
    P none (Machine.dispatch i d body s) := by
  unfold Machine.dispatch; dsimp only; split
  · unfold offerRelay; split <;> exact kept.same h
  · exact kept.same h
  split
  · exact kept.same h
  · next c req ok =>
    let x : Context := ⟨(s.ctx c).gen + 1, some (newTxn i d (body.getD 1 0) req)⟩
    exact kept.settled (s := s.setCtx c x) (kept.accepts h (normal_of_acceptance ok)) .of_same

theorem assembleCharacter {s : State} (h : P none s) (i : LaneId) (d : DropId) (c : LaneChar) :
    P none (Machine.assembleCharacter i d c s) := by
  unfold Machine.assembleCharacter completeFrame; dsimp only; repeat' split
  · exact kept.same h
  · exact kept.same h
  · exact kept.same h
  · exact kept.dispatch (kept.same h) _ _ _
  · exact kept.same h
  · exact kept.same h

theorem takeCharacter {s : State} (h : P none s) (i : LaneId) (x : Samples) : P none (Machine.takeCharacter i x s) := by
  have stands : P none (s.mapLane i Lane.heldStands) := kept.same h
  unfold Machine.takeCharacter
  split
  · split
    · exact h
    dsimp only; split
    · exact stands
    · exact kept.same h
    · exact kept.same h
    split
    · exact kept.same h
    · exact kept.assembleCharacter stands _ _ _
    · exact stands
  · exact h

theorem takeBreak {s : State} (h : P none s) (i : LaneId) : P none (Machine.takeBreak i s) := by
  unfold Machine.takeBreak; split
  · exact kept.laneAbort (kept.same h) _ _
  · exact h

theorem takeSetLane {s : State} (h : P none s) (i : LaneId) (serve : Bool) (r : Fin 5) :
    P none (Machine.takeSetLane i serve r s) := by
  unfold Machine.takeSetLane; dsimp only; repeat' split
  · exact kept.same h
  · exact kept.same h
  · exact kept.laneAbort h _ _
  · exact h
  · exact kept.laneAbort h _ _

theorem takeSetDrop {s : State} (h : P none s) (i : LaneId) (d : DropId) (e : Enrolment) :
    P none (Machine.takeSetDrop i d e s) := by
  unfold Machine.takeSetDrop; dsimp only; repeat' split
  · exact h
  · exact kept.abort (kept.same h) _ _
  · exact kept.same h
  · exact kept.same h

/-! ### Unit Management (R185-R193) -/

section
variable (q : Octet) {s : State} (h : P none s)
include h

theorem manageSetLane (a b c : Octet) : P none (Machine.manageSetLane q a b c s) := by
  unfold Machine.manageSetLane; repeat' split
  · exact kept.answered (kept.takeSetLane h _ _ _) _ _ _ _
  · exact kept.answered (kept.takeSetLane h _ _ _) _ _ _ _
  · exact kept.answered h _ _ _ _
  · exact kept.answered h _ _ _ _

theorem manageSetDrop (a b c : Octet) : P none (Machine.manageSetDrop q a b c s) := by
  unfold Machine.manageSetDrop; split
  · exact kept.answered (kept.takeSetDrop h _ _ _) _ _ _ _
  · exact kept.answered h _ _ _ _

theorem manageSetDay (d : Day) : P none (Machine.manageSetDay q d s) := by
  unfold Machine.manageSetDay; repeat' split
  all_goals exact kept.answered (kept.same h) _ _ _ _

theorem manageSetOverride (v : Octet) : P none (Machine.manageSetOverride q v s) := by
  unfold Machine.manageSetOverride; split
  all_goals exact kept.answered (kept.same h) _ _ _ _

theorem manageQuiesce : P none (Machine.manageQuiesce q s) := by
  unfold Machine.manageQuiesce
  split
  · split
    · next idle => exact kept.answered (kept.quiesces h ((unitIdle_iff s).mp idle)) _ _ _ _
    · exact kept.noNew h ⟨fun _ => .refl _, rfl, fun _ => id, rfl, nofun⟩
  · exact kept.answered h _ _ _ _
  · exact kept.answered h _ _ _ _

theorem manageResumeService : P none (Machine.manageResumeService q s) := by
  have normal : P none (s.mapUm fun u => { u with service := .normal, pendingQuiesce := none }) :=
    kept.noNew h ⟨fun _ => .refl _, rfl, fun _ => id, rfl, nofun⟩
  unfold Machine.manageResumeService; dsimp only; split
  · exact kept.answered (kept.answered normal _ _ _ _) _ _ _ _
  · exact kept.answered normal _ _ _ _

theorem manageFlushCache : P none (Machine.manageFlushCache q s) := by
  unfold Machine.manageFlushCache; split
  · next quiesced => exact kept.answered (kept.flushes h quiesced) _ _ _ _
  · exact kept.answered h _ _ _ _

theorem manageReadCounters (c : Octet) : P none (Machine.manageReadCounters q c s) := by
  unfold Machine.manageReadCounters; split
  all_goals exact kept.answered (kept.same h) _ _ _ _

/-! ### The rule store (R171-R182) -/

omit kept h in
theorem setBlock_entries (r : RuleStore) (b c : BlockId) (x : Block) :
    (r.setBlock b x).block c = if b = c then x else r.block c := by
  by_cases own : b = c
  · subst own; simp [RuleStore.setBlock, RuleStore.block]
  · have : b.val ≠ c.val := fun same => own (Fin.ext same)
    simp [RuleStore.setBlock, RuleStore.block, own, this]

omit kept h in
/-- One block is replaced by one with as many entries; the operation that runs then, if any, is on a block that is
INCOMPLETE. -/
theorem storeShape_setBlock (shape : StoreShape s) {b : BlockId} {x : Block} {r : RuleStore}
    (size : x.entries.length = entryCount b) (blocks : r.blocks = (s.rs.setBlock b x).blocks)
    (operation : ∀ o, r.operation = some o → o.block = b ∧ x.content = .incomplete) :
    StoreShape { s with rs := r } := by
  have block : ∀ c, r.block c = if b = c then x else s.rs.block c := fun c => by
    rw [← setBlock_entries, RuleStore.block, blocks]; rfl
  refine ⟨fun o is => ?_, fun c => ?_⟩
  · obtain ⟨own, incomplete⟩ := operation o is
    exact (congrArg Block.content (by rw [block, if_pos own.symm])).trans incomplete
  · rw [show State.rs { s with rs := r } = r from rfl, block]
    split
    · next own => rw [← own]; exact size
    · exact shape.2 c

/-- The flags change, and a running operation goes on or ends with its block INCOMPLETE. -/
theorem flags (f : RuleStore → RuleStore) (blocks : (f s.rs).blocks = s.rs.blocks)
    (operation : (f s.rs).operation = none ∨ (f s.rs).operation = s.rs.operation) : P none (s.mapRs f) := by
  refine kept.store h fun shape => ⟨fun o is => ?_, fun b => ?_⟩
  · rcases operation with idle | same
    · exact absurd (idle.symm.trans is) nofun
    · exact (congrArg (fun v : Vector Block 13 => v[o.block].content) blocks).trans (shape.1 o (same ▸ is))
  · exact (congrArg (fun v : Vector Block 13 => v[b].entries.length) blocks).trans (shape.2 b)

theorem startOperation (kind : OpKind) (b : BlockId) (command : Octet) :
    P none (Machine.startOperation kind b q command s) :=
  kept.store h fun shape => storeShape_setBlock shape (b := b) (x := { s.rs.block b with content := .incomplete })
    (shape.2 b) rfl fun _ is => by cases is; exact ⟨rfl, rfl⟩

theorem takeTableClear (b : Octet) : P none (Machine.takeTableClear q b s) := by
  unfold Machine.takeTableClear; repeat' split
  · exact kept.answered h _ _ _ _
  · exact kept.answered h _ _ _ _
  · exact kept.startOperation q h _ _ _

theorem sequenceError (command : Octet) : P none (Machine.sequenceError q command s) :=
  kept.answered (kept.flags h (fun r => { r with sequenceError := true }) rfl (.inr rfl)) _ _ _ _

theorem takeTableWrite (b e : Octet) (vs : List Octet) : P none (Machine.takeTableWrite q b e vs s) := by
  unfold Machine.takeTableWrite; dsimp only; repeat' split
  · exact kept.answered h _ _ _ _
  · exact kept.answered h _ _ _ _
  · exact kept.answered h _ _ _ _
  · exact kept.answered h _ _ _ _
  · exact kept.sequenceError q h _
  · exact kept.sequenceError q h _
  · exact kept.answered (kept.flags h (fun r => { r with writeError := true }) rfl (.inr rfl)) _ _ _ _
  · exact kept.startOperation q h _ _ _

theorem takeTableClose (b : Octet) : P none (Machine.takeTableClose q b s) := by
  unfold Machine.takeTableClose; dsimp only; repeat' split
  · exact kept.answered h _ _ _ _
  · exact kept.answered h _ _ _ _
  · exact kept.answered h _ _ _ _
  · exact kept.sequenceError q h _
  · exact kept.startOperation q h _ _ _

theorem takeTableAbort : P none (Machine.takeTableAbort q s) := by
  unfold Machine.takeTableAbort; split
  · exact kept.answered h _ _ _ _
  · exact kept.answered (kept.answered (kept.flags h (fun r => { r with operation := none }) rfl (.inl rfl)) _ _ _ _) _ _ _ _

theorem takeTableStatusClear : P none (Machine.takeTableStatusClear q s) := by
  unfold Machine.takeTableStatusClear; split
  · exact kept.answered h _ _ _ _
  · exact kept.answered (kept.flags h (fun r => { r with writeError := false, sequenceError := false }) rfl (.inr rfl)) _ _ _ _

omit q in
/-- An operation completes: the store is READY, and the block has its entries in number. -/
theorem finished (b : BlockId) {x : Block} (size : StoreShape s → x.entries.length = entryCount b) :
    P none (s.mapRs fun r => r.finish b x) :=
  kept.store h fun shape => storeShape_setBlock shape (size shape) rfl nofun

omit q in
theorem clearCompletes : P none (Machine.clearCompletes s) := by
  unfold Machine.clearCompletes; split
  · exact kept.answered (kept.finished h _ fun _ => List.length_replicate) _ _ _ _
  · exact h

omit q in
theorem writeCompletes : P none (Machine.writeCompletes s) := by
  unfold Machine.writeCompletes; split
  · exact kept.answered (kept.finished (x := ⟨_, List.set _ _ _⟩) h _ fun shape => List.length_set.trans (shape.2 _)) _ _ _ _
  · exact h

omit q in
theorem closeCompletes : P none (Machine.closeCompletes s) := by
  unfold Machine.closeCompletes; split
  · have finished := fun b => kept.finished (x := ⟨.valid, (s.rs.block b).entries⟩) h b fun shape => shape.2 b
    exact kept.noNew (kept.answered (finished _) _ _ _ _) (noNew_blockAvailable _ _)
  · exact h

end

/-- What the operations on the cache, the fills and the store keep, every step keeps. -/
theorem keeps : Keeps (P none) where
  queue _ _ h := kept.same h
  receiver _ _ h _ _ _ _ := kept.same h
  octet _ h := kept.same h
  reset := kept.reset
  power _ h := kept.same (kept.flags h
    (fun r => { r with operation := none, writeError := false, sequenceError := false }) rfl (.inl rfl))
  breakEnd _ _ h := kept.same h
  gapEnd _ _ h := kept.same h
  turnStart _ _ h := kept.same h
  transmitEnd _ _ h := kept.same h
  frameGapOut _ _ h := kept.same h
  quietEnd _ _ h := kept.same h
  windowOut _ _ h := kept.same h
  heldStands _ _ h := kept.same h
  character i x _ h := kept.takeCharacter h i x
  lineBreak i _ h := kept.takeBreak h i
  reply _ _ _ _ h := kept.same h
  segment _ _ _ _ _ _ _ _ h := kept.takeSegment h ..
  absent _ _ h := kept.takeAbsent h ..
  defer _ _ _ h := kept.takeDefer h ..
  notice _ _ _ _ h := kept.takeInvalidate h ..
  result _ _ _ _ _ h := kept.takeResult h ..
  delayEnd _ _ h := kept.endDelay h ..
  fetchOut _ _ h := kept.fetchTimerOut h ..
  commitOut _ _ h := kept.commitTimerOut h ..
  deadline _ _ h := kept.deadlineFalls h ..
  sent _ h := kept.endFrame h
  decision _ _ h := kept.takeDecision h ..
  setLane q _ _ _ _ h _ := kept.manageSetLane q h ..
  setDrop q _ _ _ _ h _ := kept.manageSetDrop q h ..
  setDay q _ _ h _ := kept.manageSetDay q h ..
  setOverride q _ _ h _ := kept.manageSetOverride q h ..
  quiesce q _ h _ := kept.manageQuiesce q h
  resumeService q _ h _ := kept.manageResumeService q h
  flushCache q _ h _ := kept.manageFlushCache q h
  readCounters q _ _ h _ := kept.manageReadCounters q h ..
  answered _ _ _ _ _ h _ := kept.answered h ..
  tableClear q _ _ h _ := kept.takeTableClear q h ..
  tableWrite q _ _ _ _ h _ := kept.takeTableWrite q h ..
  tableClose q _ _ h _ := kept.takeTableClose q h ..
  tableAbort q _ h _ := kept.takeTableAbort q h
  tableStatusClear q _ h _ := kept.takeTableStatusClear q h
  clearDone _ h := kept.clearCompletes h
  writeDone _ h := kept.writeCompletes h
  closeDone _ h := kept.closeCompletes h

end CacheKept

end Sys2Proof.RecordCache

namespace Sys2Proof.RecordCache

open Sys2Proof Sys2Proof.Machine Sys2Proof.Safety Sys2Proof.KioskLanes Sys2Proof.Transactions

/-! ## What an allocation and its fill change (R65, R85) -/

theorem asking_moves (i : SlotId) (gen : Gen) (f : Fill) (first count : Nat) (s : State) :
    ∃ slots bli, asking i gen f first count s = { s with fu := { s.fu with slots := slots }, bli := bli } := by
  unfold asking; split <;> exact ⟨_, _, rfl⟩

theorem asking_slot (i : SlotId) (gen : Gen) (f : Fill) (first count : Nat) (s : State) :
    ∃ owed, (asking i gen f first count s).slot i = ⟨gen, some { f with owed := owed }, true⟩ := by
  unfold asking; split
  · exact ⟨_, State.slot_setSlot s i _⟩
  · exact ⟨_, State.slot_setSlot s i ⟨gen, some { f with owed := none }, true⟩⟩

theorem asking_slot_ne {i j : SlotId} (other : i ≠ j) (gen : Gen) (f : Fill) (first count : Nat) (s : State) :
    (asking i gen f first count s).slot j = s.slot j := by
  unfold asking; split
  · exact State.slot_setSlot_ne s _ other
  · exact State.slot_setSlot_ne s ⟨gen, some { f with owed := none }, true⟩ other

theorem giveFill_moves (w : WaitingFill) (s : State) : ∃ fu bli, giveFill w s = { s with fu := fu, bli := bli } := by
  cases idle : idleSlot s with
  | none => exact ⟨_, _, giveFill_waits idle⟩
  | some i =>
    obtain ⟨slots, bli, moved⟩ := asking_moves i ((s.slot i).gen + 1)
      { freshFill w.kind w.key w.entry with highest := w.highest } 0 w.kind.segments s
    exact ⟨_, bli, (giveFill_idle idle).trans moved⟩

theorem giveFill_pool (w : WaitingFill) (s : State) (k : RecordKind) : (giveFill w s).pool k = s.pool k := by
  obtain ⟨fu, bli, moved⟩ := giveFill_moves w s
  rw [moved]; rfl

section
variable {c : CtxId} {k : RecordKind} {key : Key} {n : Nat} {s : State}

theorem room_lt (room : (s.pool k).room = some n) : n < (s.pool k).entries.length := by
  rcases (room_iff s k n).mp room with ⟨small, -⟩ | ⟨-, ⟨copy, is⟩, -⟩
  · exact small
  · exact lt_of_entry (by rw [is]; nofun)

/-- The entry that an allocation takes has no fill. -/
theorem room_not_filling (room : (s.pool k).room = some n) (key : Key) (ws : List CtxId) : s.entry k n ≠ .filling key ws := by
  intro is
  rcases room_entry room with empty | evict
  · cases is.symm.trans empty
  · rw [show (s.pool k).entry n = .filling key ws from is] at evict; cases evict

theorem not_holdsKey_of_absent (absent : (s.pool k).find key = none) (m : Nat) : ¬ HoldsKey s k key m := by
  intro holds
  have small : m < (s.pool k).entries.length := lt_of_entry fun e => by rw [HoldsKey, e] at holds; exact holds
  rw [← found_iff, entry_eq_getElem small] at holds
  have not := List.findIdx?_eq_none_iff.mp absent _ (List.getElem_mem small)
  exact Bool.noConfusion (holds.symm.trans not)

theorem allocated_entry (room : (s.pool k).room = some n) : (allocated c k key n s).entry k n = .filling key [c] := by
  rw [← allocated_eq, State.entry, State.pool_setPool]
  exact (congrArg (·.entry n) (State.pool_setPool s k _)).symm.trans (State.entry_setEntry s k n _ (room_lt room))

theorem allocated_entry_other {l : RecordKind} {m : Nat} (other : ¬ (k = l ∧ n = m)) :
    (allocated c k key n s).entry l m = s.entry l m := by
  rw [← allocated_eq]
  by_cases same : k = l
  · subst same
    rw [State.entry, State.pool_setPool]
    exact (congrArg (·.entry m) (State.pool_setPool s k _)).symm.trans
      (State.entry_setEntry_ne s k (.filling key [c]) fun is => other ⟨rfl, is⟩)
  · rw [State.entry, State.pool_setPool_ne s _ same]; rfl

end

/-! ## The flush (R81, R190) -/

theorem flush_pool (s : State) (k : RecordKind) :
    ({ s with rc := ⟨s.rc.patron.flush, s.rc.title.flush, s.rc.item.flush⟩ } : State).pool k = (s.pool k).flush := by
  cases k <;> rfl

theorem flush_entry (p : Pool) (n : Nat) : p.flush.entry n = .empty := 
  List.getD_map p.entries Entry.empty fun _ => Entry.empty

/-! ## Pools in shape (R62, R69) -/

theorem poolShape_setPool {s : State} {k : RecordKind} {p : Pool} (shape : PoolShape s)
    (size : p.entries.length = (s.pool k).entries.length) (order : p.lru.Perm (s.pool k).lru) : PoolShape (s.setPool k p) := by
  intro l
  by_cases same : k = l
  · subst same
    rw [State.pool_setPool]
    exact ⟨size.trans (shape k).1, order.trans (shape k).2⟩
  · rw [State.pool_setPool_ne s p same]; exact shape l

theorem poolShape_tasks : TasksKept PoolShape where
  noNew shape new k := ⟨(new.pools k).size.trans (shape k).1, (new.pools k).order.trans (shape k).2⟩
  allocates {c k key n s} shape _ _ _ l := by
    rw [giveFill_pool, ← allocated_eq]
    exact poolShape_setPool (p := (((s.pool k).setEntry n (.filling key [c])).touch n).leaveQueue c) shape
      List.length_set (touch_order ((s.pool k).setEntry n _) n) l

/-- A property of the cache that the reset state has, a part has after any reset. -/
theorem kept_reset {P : State → Prop} (tasks : TasksKept P) (store : ∀ s r, P s → P { s with rs := r }) (h : P State.reset)
    (phase : RxPhase) (straps : BitVec 6) (cause : ResetCause) (s : State) : P (resetAll phase straps cause s) :=
  store { resetAll phase straps cause s with rs := State.reset.rs } (resetAll phase straps cause s).rs
    (tasks.noNew h .of_same)

theorem poolShape_kept : CacheKept fun _ => PoolShape where
  tasks _ := poolShape_tasks
  fills shape _ := shape
  outcome shape _ _ := poolShape_setPool shape List.length_set (.refl _)
  finishes shape k := by rw [finishSlot_pool]; exact shape k
  accepts shape _ := shape
  quiesces shape _ := shape
  store shape _ := shape
  flushes shape _ k := by
    rw [flush_pool]
    exact ⟨(List.length_map _).trans (shape k).1, (shape k).2⟩
  reset phase straps cause s _ := by
    obtain ⟨-, -, -, shape, -⟩ := resetMeetsInvariants
    exact kept_reset poolShape_tasks (fun _ _ => id) shape phase straps cause s

/-! ## The rule store in shape (R169, R171) -/

theorem storeShape_congr {s t : State} (store : t.rs = s.rs) (shape : StoreShape s) : StoreShape t := by
  rw [StoreShape, store]; exact shape

theorem storeShape_kept : CacheKept fun _ => StoreShape where
  tasks _ :=
    { noNew := fun shape new => storeShape_congr new.store shape
      allocates := fun {c k key n s} shape _ _ _ => by
        obtain ⟨fu, bli, moved⟩ := giveFill_moves ⟨k, n, key, 0⟩ (allocated c k key n s)
        rw [moved]; exact storeShape_congr (s := s) rfl shape }
  fills shape _ := shape
  outcome shape _ _ := shape
  finishes {i s} shape := by
    obtain ⟨fu, bli, moved⟩ := finishSlot_moves i s
    rw [moved]; exact shape
  accepts shape _ := shape
  quiesces shape _ := shape
  store shape kept := kept shape
  flushes shape _ := shape
  reset _ _ _ _ shape := ⟨nofun, shape.2⟩

/-! ## Each context once on a list (R67, R70) -/

theorem waitOnce_iff (s : State) :
    WaitOnce s ↔ ∀ k, (s.pool k).queue.Nodup ∧ ∀ n, (waiters (s.entry k n)).Nodup := by
  have entries : ∀ k n, (match s.entry k n with
      | .filling _ ws | .valid _ _ ws => ws.Nodup
      | .empty | .transient .. => True) ↔ (waiters (s.entry k n)).Nodup := fun k n => by
    cases s.entry k n <;> simp [waiters]
  exact forall_congr' fun k => and_congr_right fun _ => forall_congr' fun n => entries k n

theorem setEntry_entry (p : Pool) (n : Nat) (e : Entry) (m : Nat) :
    (p.setEntry n e).entry m = e ∨ (p.setEntry n e).entry m = p.entry m := by
  unfold Pool.entry Pool.setEntry
  simp only [List.getD_eq_getElem?_getD, List.getElem?_set]
  split
  · split
    · exact .inl rfl
    · next same beyond => exact .inr (by rw [← same, List.getElem?_eq_none (Nat.not_lt.mp beyond)])
  · exact .inr rfl

theorem waitOnce_setPool {s : State} {k : RecordKind} {p : Pool} (once : WaitOnce s) (queue : p.queue.Nodup)
    (entries : ∀ n, (waiters (p.entry n)).Nodup) : WaitOnce (s.setPool k p) := by
  rw [waitOnce_iff] at once ⊢
  intro l
  by_cases same : k = l
  · subst same; simp only [State.entry, State.pool_setPool]; exact ⟨queue, entries⟩
  · simp only [State.entry, State.pool_setPool_ne s p same]; exact once l

theorem waitOnce_setEntry {s : State} (once : WaitOnce s) (k : RecordKind) (n : Nat) {e : Entry}
    (new : (waiters e).Nodup) (m : Nat) : (waiters (((s.pool k).setEntry n e).entry m)).Nodup := by
  rcases setEntry_entry (s.pool k) n e m with is | is <;> rw [is]
  · exact new
  · exact ((waitOnce_iff s).mp once k).2 m

theorem waitOnce_giveFill {s : State} (once : WaitOnce s) (w : WaitingFill) : WaitOnce (giveFill w s) := by
  obtain ⟨fu, bli, moved⟩ := giveFill_moves w s
  rw [moved]; exact once

theorem waitOnce_tasks : TasksKept WaitOnce where
  noNew {s t} once new := by
    rw [waitOnce_iff] at once ⊢
    exact fun k => ⟨(new.pools k).queue (once k).1, fun n => ((new.pools k).entries n).once ((once k).2 n)⟩
  allocates {c k key n s} once _ _ _ := by
    refine waitOnce_giveFill ?_ _
    rw [← allocated_eq]
    exact waitOnce_setPool (p := (((s.pool k).setEntry n (.filling key [c])).touch n).leaveQueue c) once
      ((once k).1.filter _) (waitOnce_setEntry once k n (List.nodup_singleton c))

theorem waitOnce_kept : CacheKept fun _ => WaitOnce where
  tasks _ := waitOnce_tasks
  fills once _ := once
  outcome {i f e s} once _ filled := waitOnce_setPool once (once f.kind).1 (waitOnce_setEntry once _ _ (by
    cases e with
    | empty | transient => exact List.nodup_nil
    | filling => exact filled.elim
    | valid => rw [filled.2]; exact List.nodup_nil))
  finishes {i s} once := by
    obtain ⟨fu, bli, moved⟩ := finishSlot_moves i s
    rw [moved]; exact once
  accepts once _ := once
  quiesces once _ := once
  store once _ := once
  flushes {s} once _ := (waitOnce_iff _).mpr fun k => by
    rw [flush_pool]
    exact ⟨List.nodup_nil, fun n => by rw [State.entry, flush_pool, flush_entry]; exact List.nodup_nil⟩
  reset phase straps cause s _ := by
    obtain ⟨-, -, -, -, -, -, -, -, -, -, once, -⟩ := resetMeetsInvariants
    exact kept_reset waitOnce_tasks (fun _ _ => id) once phase straps cause s

end Sys2Proof.RecordCache

namespace Sys2Proof.RecordCache

open Sys2Proof Sys2Proof.Machine Sys2Proof.Safety Sys2Proof.KioskLanes Sys2Proof.Transactions

/-! ## Each key once (R83, R85, R105, R189)

The invariant is stated over the list of FU's fills by entry and key. In the midst of a fill's end, when its entry has had
the outcome and its slot holds it still, that slot is left out of the list. -/

/-- The fill in a slot by its entry and key, but for slot `x`'s. -/
def slotPlace (x : Option SlotId) (s : State) (i : SlotId) : Option (RecordKind × Nat × Key) :=
  if x = some i then none else (s.slot i).fill.map place

/-- FU's fills by their entries and keys, but for slot `x`'s. -/
def placesBut (x : Option SlotId) (s : State) : List (RecordKind × Nat × Key) :=
  allSlots.filterMap (slotPlace x s) ++ s.fu.waiting.map waitingPlace

theorem slot_congr {s t : State} (fu : t.fu = s.fu) (i : SlotId) : t.slot i = s.slot i :=
  congrArg (fun u : FillUnit => u.slots[i]) fu

theorem placesBut_congr {s t : State} (fu : t.fu = s.fu) (x : Option SlotId) : placesBut x t = placesBut x s := by
  have slots : slotPlace x t = slotPlace x s := funext fun i => by rw [slotPlace, slotPlace, slot_congr fu]
  rw [placesBut, placesBut, slots, fu]

/-- `KeysOnce` but for the fill of slot `x`, if that is given. -/
structure Keyed (x : Option SlotId) (s : State) : Prop where
  once : ∀ k key n m, HoldsKey s k key n → HoldsKey s k key m → n = m
  filling : ∀ p ∈ placesBut x s, ∃ ws, s.entry p.1 p.2.1 = .filling p.2.2 ws
  apart : ((placesBut x s).map fun p => (p.1, p.2.1)).Nodup
  busy : ∀ i, x = some i → (s.slot i).fill ≠ none
  quiesced : s.um.service = .quiesced → Idle s

theorem slotPlace_none (s : State) (i : SlotId) : slotPlace none s i = (s.slot i).fill.map place := if_neg nofun

theorem slotPlace_self (s : State) (i : SlotId) : slotPlace (some i) s i = none := if_pos rfl

theorem slotPlace_ne {i j : SlotId} (other : j ≠ i) (s : State) : slotPlace (some i) s j = (s.slot j).fill.map place :=
  if_neg fun same => other (Option.some.inj same).symm

theorem mem_placesBut_none {s : State} {p : RecordKind × Nat × Key} : p ∈ placesBut none s ↔
    (∃ i f, (s.slot i).fill = some f ∧ place f = p) ∨ ∃ w ∈ s.fu.waiting, waitingPlace w = p := by
  simp only [placesBut, List.mem_append, List.mem_filterMap, slotPlace_none, List.mem_map, Option.map_eq_some_iff,
    mem_allSlots, true_and]

theorem placesBut_fillPlaces (s : State) : (placesBut none s).map (fun p => (p.1, p.2.1)) = fillPlaces s := by
  simp only [placesBut, fillPlaces, slotPlace_none, List.map_append, List.map_filterMap, Option.map_map, List.map_map]
  rfl

theorem keyed_none_iff (s : State) : Keyed none s ↔ KeysOnce s := by
  constructor
  · intro h
    exact ⟨h.once, fun i f is => h.filling (place f) (mem_placesBut_none.mpr (.inl ⟨i, f, is, rfl⟩)),
      fun w mem => h.filling (waitingPlace w) (mem_placesBut_none.mpr (.inr ⟨w, mem, rfl⟩)),
      placesBut_fillPlaces s ▸ h.apart, h.quiesced⟩
  · intro h
    refine ⟨h.once, fun p mem => ?_, (placesBut_fillPlaces s).symm ▸ h.apart, nofun, h.quiesced⟩
    rcases mem_placesBut_none.mp mem with ⟨i, f, is, rfl⟩ | ⟨w, waits, rfl⟩
    · exact h.slots i f is
    · exact h.waiting w waits

/-- The entries stay, and the fills but for the one left out are the same. -/
theorem keyed_of_places {x y : Option SlotId} {s t : State} (h : Keyed x s) (places : (placesBut y t).Perm (placesBut x s))
    (rc : t.rc = s.rc) (busy : ∀ i, y = some i → (t.slot i).fill ≠ none) (quiesced : t.um.service = .quiesced → Idle t) :
    Keyed y t := by
  have entry : ∀ k n, t.entry k n = s.entry k n := fun k n => congrArg (fun r : Cache => (r.pool k).entry n) rc
  refine ⟨fun k key n m => ?_, fun p mem => ?_, (places.map _).nodup_iff.mpr h.apart, busy, quiesced⟩
  · simp only [HoldsKey, entry]; exact h.once k key n m
  · rw [entry]; exact h.filling p (places.mem_iff.mp mem)

/-- One more fill, whose entry is FILLING and was not, for a key that no entry holds. -/
theorem keyed_joined {x : Option SlotId} {s t : State} (h : Keyed x s) {k : RecordKind} {key : Key} {n : Nat}
    {ws : List CtxId} (places : (placesBut x t).Perm ((k, n, key) :: placesBut x s)) (absent : ∀ m, ¬ HoldsKey s k key m)
    (new : t.entry k n = .filling key ws) (others : ∀ l m, ¬ (k = l ∧ n = m) → t.entry l m = s.entry l m)
    (before : ∀ key ws, s.entry k n ≠ .filling key ws) (busy : ∀ i, x = some i → (t.slot i).fill ≠ none)
    (quiesced : t.um.service = .quiesced → Idle t) : Keyed x t := by
  have holds : ∀ l key' a, HoldsKey t l key' a → (k = l ∧ n = a ∧ key' = key) ∨ HoldsKey s l key' a := fun l key' a is => by
    by_cases own : k = l ∧ n = a
    · obtain ⟨rfl, rfl⟩ := own
      rw [HoldsKey, new] at is; exact .inl ⟨rfl, rfl, is.symm⟩
    · rw [HoldsKey, others l a own] at is; exact .inr is
  have apart : ∀ p ∈ placesBut x s, ¬ (k = p.1 ∧ n = p.2.1) := fun p mem own => by
    obtain ⟨ws, is⟩ := h.filling p mem
    rw [← own.1, ← own.2] at is; exact before _ _ is
  refine ⟨fun l key' a b ha hb => ?_, fun p mem => ?_, ?_, busy, quiesced⟩
  · rcases holds l key' a ha with ⟨rfl, rfl, rfl⟩ | old <;> rcases holds _ _ b hb with ⟨same, rfl, eq⟩ | old'
    · rfl
    · exact absurd old' (absent b)
    · subst same eq; exact absurd old (absent a)
    · exact h.once l key' a b old old'
  · rcases List.mem_cons.mp (places.mem_iff.mp mem) with rfl | mem
    · exact ⟨ws, new⟩
    · rw [others _ _ (apart p mem)]; exact h.filling p mem
  · refine (places.map _).nodup_iff.mpr (List.nodup_cons.mpr ⟨fun mem => ?_, h.apart⟩)
    obtain ⟨p, mem, same⟩ := List.mem_map.mp mem
    exact apart p mem ⟨(congrArg Prod.fst same).symm, (congrArg Prod.snd same).symm⟩

/-- The fill given to FU is one more in its list. -/
theorem placesBut_giveFill {x : Option SlotId} {s : State} (busy : ∀ i, x = some i → (s.slot i).fill ≠ none)
    (w : WaitingFill) : (placesBut x (giveFill w s)).Perm (waitingPlace w :: placesBut x s) := by
  cases idle : idleSlot s with
  | none =>
    have slots : slotPlace x (giveFill w s) = slotPlace x s := by rw [giveFill_waits idle]; rfl
    rw [placesBut, slots, giveFill_waits idle, placesBut, List.map_append]
    rw [← List.append_assoc]
    exact List.perm_append_singleton _ _
  | some i =>
    have free := idleSlot_idle idle
    have out : x ≠ some i := fun is => busy i is free
    rw [giveFill_idle idle]
    obtain ⟨owed, given⟩ := asking_slot i ((s.slot i).gen + 1)
      { freshFill w.kind w.key w.entry with highest := w.highest } 0 w.kind.segments s
    refine (filterMap_insert (f := slotPlace x s) (a := i) (b := waitingPlace w) ?_ ?_ (fun j other => ?_) _ (mem_allSlots i)
      (by decide)).append_right _ |>.trans ?_
    · rw [slotPlace, free]; exact ite_self none
    · rw [slotPlace, if_neg out, given]; rfl
    · rw [slotPlace, asking_slot_ne other.symm]; rfl
    · obtain ⟨slots, bli, moved⟩ := asking_moves i ((s.slot i).gen + 1)
        { freshFill w.kind w.key w.entry with highest := w.highest } 0 w.kind.segments s
      rw [moved]; exact .refl _

theorem keyed_tasks (x : Option SlotId) : TasksKept (Keyed x) where
  noNew {s t} h new := by
    have found : ∀ k key n, HoldsKey t k key n → HoldsKey s k key n := fun k key n is =>
      (found_iff s k key n).mp (((new.pools k).entries n).found key ((found_iff t k key n).mpr is))
    have places := placesBut_congr new.fu x
    refine ⟨fun k key n m hn hm => h.once k key n m (found _ _ _ hn) (found _ _ _ hm), fun p mem => ?_, places ▸ h.apart,
      fun i is => by rw [slot_congr new.fu]; exact h.busy i is, fun is => idle_of_noNew new (h.quiesced (new.service is))⟩
    obtain ⟨ws, is⟩ := h.filling p (places ▸ mem)
    exact ((new.pools p.1).entries p.2.1).filling p.2.2 ws is
  allocates {c k key n s} h busy absent room := by
    obtain ⟨fu, bli, moved⟩ := giveFill_moves ⟨k, n, key, 0⟩ (allocated c k key n s)
    have entry : ∀ l m, (giveFill ⟨k, n, key, 0⟩ (allocated c k key n s)).entry l m = (allocated c k key n s).entry l m :=
      fun l m => congrArg (·.entry m) (giveFill_pool _ _ l)
    have fu' : (allocated c k key n s).fu = s.fu := rfl
    have busy' : ∀ i, x = some i → ((allocated c k key n s).slot i).fill ≠ none := fun i is => by
      rw [slot_congr fu']; exact h.busy i is
    have places := placesBut_giveFill busy' ⟨k, n, key, 0⟩
    rw [placesBut_congr fu'] at places
    refine keyed_joined h (ws := [c]) places (not_holdsKey_of_absent absent)
      ((entry k n).trans (allocated_entry room)) (fun l m other => (entry l m).trans (allocated_entry_other other))
      (room_not_filling room) (fun i is => ?_) fun is => ?_
    · obtain ⟨f, fill⟩ := Option.ne_none_iff_exists'.mp (busy' i is)
      have stays : Stays (fun _ => True) (allocated c k key n s) (giveFill ⟨k, n, key, 0⟩ (allocated c k key n s)) :=
        stays_giveFill _ _
      rw [stays.slots i f fill]; exact busy' i is
    · rw [moved] at is
      exact absurd ((h.quiesced is).1 c) busy

/-- The list of fills with slot `i`'s first. -/
theorem placesBut_filled {s : State} {i : SlotId} {f : Fill} (fill : (s.slot i).fill = some f) :
    (placesBut none s).Perm (place f :: placesBut (some i) s) :=
  (filterMap_insert (slotPlace_self s i) (by rw [slotPlace_none, fill]; rfl)
    (fun j other => by rw [slotPlace_none, slotPlace_ne other]) _ (mem_allSlots i) (by decide)).append_right _

/-- A slot is done with its fill, and takes up the oldest one that waits. -/
theorem placesBut_finishSlot (i : SlotId) (s : State) : (placesBut none (finishSlot i s)).Perm (placesBut (some i) s) := by
  cases waiting : s.fu.waiting with
  | nil =>
    rw [finishSlot_idle waiting]
    have slots : slotPlace none (s.setSlot i { s.slot i with fill := none }) = slotPlace (some i) s := funext fun j => by
      rw [slotPlace_none]
      by_cases own : j = i
      · rw [own, State.slot_setSlot, slotPlace_self]; rfl
      · rw [State.slot_setSlot_ne s _ (Ne.symm own), slotPlace_ne own]
    rw [placesBut, slots]; exact .refl _
  | cons w ws =>
    obtain ⟨owed, taken⟩ := asking_slot i ((s.slot i).gen + 1) { freshFill w.kind w.key w.entry with highest := w.highest }
      0 w.kind.segments { s with fu := { s.fu with waiting := ws } }
    obtain ⟨slots, bli, moved⟩ := asking_moves i ((s.slot i).gen + 1)
      { freshFill w.kind w.key w.entry with highest := w.highest } 0 w.kind.segments
      { s with fu := { s.fu with waiting := ws } }
    have left : (finishSlot i s).fu.waiting = ws := by rw [finishSlot_takes waiting, moved]
    rw [placesBut, placesBut, left, waiting, List.map_cons]
    refine (filterMap_insert (f := slotPlace (some i) s) (b := waitingPlace w) (slotPlace_self s i) ?_
      (fun j other => ?_) _ (mem_allSlots i) (by decide)).append_right _ |>.trans List.perm_middle.symm
    · rw [slotPlace_none, finishSlot_takes waiting, taken]; rfl
    · rw [slotPlace_none, finishSlot_takes waiting, asking_slot_ne other.symm, slotPlace_ne other]; rfl

theorem entry_setEntry_other {s : State} {k l : RecordKind} {n m : Nat} (other : ¬ (k = l ∧ n = m)) (e : Entry) :
    (s.setEntry k n e).entry l m = s.entry l m := by
  by_cases same : k = l
  · subst same; exact State.entry_setEntry_ne s k e fun eq => other ⟨rfl, eq⟩
  · exact State.entry_setEntry_kind s n m e same

/-- The entry of slot `i`'s fill has its outcome: it keeps the key or gives it up, and the fill is left out from here on. -/
theorem keyed_outcome {s : State} {i : SlotId} {f : Fill} {e : Entry} (h : Keyed none s) (fill : (s.slot i).fill = some f)
    (filled : Filled f.key e) : Keyed (some i) (s.setEntry f.kind f.entry e) := by
  have places := placesBut_filled fill
  obtain ⟨ws, filling⟩ := h.filling (place f) (places.mem_iff.mpr List.mem_cons_self)
  have found : ∀ l key m, HoldsKey (s.setEntry f.kind f.entry e) l key m → HoldsKey s l key m := fun l key m is => by
    by_cases own : f.kind = l ∧ f.entry = m
    · obtain ⟨rfl, rfl⟩ := own
      rw [HoldsKey, State.entry_setEntry s _ _ e (lt_of_entry (by rw [show s.entry f.kind f.entry = _ from filling]; nofun))]
        at is
      rw [HoldsKey, show s.entry f.kind f.entry = _ from filling]
      cases e with
      | empty | transient => exact is.elim
      | filling => exact filled.elim
      | valid => exact filled.1.symm.trans is
    · rw [HoldsKey, entry_setEntry_other own] at is; exact is
  have once := (places.map _).nodup_iff.mp h.apart
  obtain ⟨out, apart⟩ := List.nodup_cons.mp once
  refine ⟨fun l key n m hn hm => h.once l key n m (found _ _ _ hn) (found _ _ _ hm), fun p mem => ?_, apart, ?_, fun is => ?_⟩
  · have other : ¬ (f.kind = p.1 ∧ f.entry = p.2.1) := fun own =>
      out (List.mem_map.mpr ⟨p, mem, Prod.ext own.1.symm own.2.symm⟩)
    rw [entry_setEntry_other other]
    exact h.filling p (places.mem_iff.mpr (List.mem_cons_of_mem _ mem))
  · rintro j ⟨⟩ idle; cases fill.symm.trans idle
  · cases fill.symm.trans ((h.quiesced is).2.1 i)

theorem sameFills_idle {s t : State} (same : SameFills s t) (free : ∀ c, s.txn c = none → t.txn c = none) (idle : Idle s) :
    Idle t := by
  obtain ⟨contexts, slots, waiting⟩ := idle
  refine ⟨fun c => free c (contexts c), fun i => ?_, List.map_eq_nil_iff.mp (by rw [same.waiting, waiting]; rfl)⟩
  exact Option.map_eq_none_iff.mp (by rw [same.slots, slots]; rfl)

/-- An idle unit has no fill. -/
theorem placesBut_idle {s : State} (idle : Idle s) : placesBut none s = [] := by
  obtain ⟨-, slots, waiting⟩ := idle
  rw [placesBut, waiting, List.filterMap_eq_nil_iff.mpr fun i _ => by rw [slotPlace_none, slots]; rfl]; rfl

theorem keyed_kept : CacheKept Keyed where
  tasks := keyed_tasks
  fills {s fu} h same := by
    have slots : slotPlace none { s with fu := fu } = slotPlace none s := funext fun i => by
      rw [slotPlace_none, slotPlace_none]; exact same.slots i
    refine keyed_of_places h ?_ rfl nofun fun is => sameFills_idle same (fun _ => id) (h.quiesced is)
    rw [placesBut, slots, same.waiting]; exact .refl _
  outcome := keyed_outcome
  finishes {i s} h := by
    obtain ⟨fu, bli, moved⟩ := finishSlot_moves i s
    refine keyed_of_places h (placesBut_finishSlot i s) (by rw [moved]) nofun fun is => ?_
    rw [moved] at is
    exact absurd ((h.quiesced is).2.1 i) (h.busy i rfl)
  accepts {c x s} h normal :=
    keyed_of_places h (.refl _) rfl nofun fun is => nomatch normal.symm.trans is
  quiesces h idle := keyed_of_places h (.refl _) rfl nofun fun _ => idle
  store {s r} h _ := keyed_of_places h (.refl _) rfl nofun h.quiesced
  flushes {s} h quiesced := by
    have idle := h.quiesced quiesced
    have nothing := placesBut_idle idle
    refine ⟨fun k key n m is => ?_, fun p mem => ?_, h.apart, nofun, fun _ => idle⟩
    · rw [HoldsKey, State.entry, flush_pool, flush_entry] at is; exact is.elim
    · have mem : p ∈ placesBut none s := mem
      rw [nothing] at mem; cases mem
  reset phase straps cause s _ :=
    kept_reset (keyed_tasks none) (fun s r h => keyed_of_places h (.refl _) rfl nofun h.quiesced)
      ((keyed_none_iff _).mpr keysOnce_reset) phase straps cause s

/-- Settles O58: the operations on the cache, the fills and the store keep the four shapes, and every step is made of these. -/
theorem tableShapesKept : Obligations.TableShapesKept := by
  refine ⟨rfl, rfl, rfl, poolShape_kept.keeps.step, storeShape_kept.keeps.step, fun s t h moves => ?_, waitOnce_kept.keeps.step⟩
  exact (keyed_none_iff t).mp (keyed_kept.keeps.step s t ((keyed_none_iff s).mpr h) moves)

end Sys2Proof.RecordCache

namespace Sys2Proof.RecordCache

open Sys2Proof Sys2Proof.Machine Sys2Proof.Safety Sys2Proof.KioskLanes Sys2Proof.Transactions

/-! ## The pending QUIESCE (R189) -/

theorem settleQuiesce_idle {s : State} {q : Octet} (service : s.um.service = .quiescing)
    (pending : s.um.pendingQuiesce = some q) (idle : Idle s) : settleQuiesce s =
      answer q 0x05 .done [] { s with um := { s.um with service := .quiesced, pendingQuiesce := none } } := by
  rw [settleQuiesce, if_pos ⟨service, (unitIdle_iff s).mpr idle⟩]
  simp only [pending]; rfl

theorem settleQuiesce_waits {s : State} (h : s.um.service ≠ .quiescing ∨ ¬ Idle s) : settleQuiesce s = s :=
  if_neg fun both => h.elim (· both.1) (· ((unitIdle_iff s).mp both.2))

/-- What an answer does to UM's replies and to the link depends on nothing else. -/
theorem answer_um_bli (q c : Octet) (r : ResultCode) (fs : List Octet) {s t : State} (um : t.um = s.um)
    (bli : t.bli = s.bli) : (answer q c r fs t).um = (answer q c r fs s).um ∧
      (answer q c r fs t).bli = (answer q c r fs s).bli := by
  unfold answer pumpReplies
  dsimp only
  rw [um]
  split
  · exact ⟨rfl, congrArg (Bli.enqueue · _) bli⟩
  · exact ⟨rfl, bli⟩

/-! ## A FREE context is the end of it (R57) -/

/-- With every context FREE no task does anything. -/
theorem runTasks_free {s : State} (free : ∀ c, s.txn c = none) (fuel : Nat) (ts : List Task) : runTasks fuel ts s = s := by
  induction fuel generalizing ts with
  | zero => rfl
  | succ n ih =>
    cases ts with
    | nil => rfl
    | cons t ts =>
      have still : (doTask t s).1 = s := by
        cases t with
        | resume c => rw [doTask, resumeCtx, free]
        | retry k => rfl
        | regather c => rw [doTask, regather, free]
      rw [runTasks_cons, still]; exact ih _

theorem foldl_mapTxn_bli (f : Txn → Txn) (ws : List CtxId) (s : State) :
    (ws.foldl (fun s w => s.mapTxn w f) s).bli = s.bli := by
  induction ws generalizing s with
  | nil => rfl
  | cons w ws ih => exact ih _

section
variable (c : CtxId) (x : Txn)

theorem releaseEntry_bli (k : RecordKind) (n : Nat) (s : State) : (releaseEntry c k n s).1.bli = s.bli := by
  rcases releaseEntry_cases c k n s with ⟨-, e⟩ | ⟨-, ts, e⟩ | ⟨copy, -, e⟩ | ⟨copy, w, rest, -, e⟩ <;> rw [e]
  · exact foldl_mapTxn_bli _ _ _
  · rfl
  · rfl

theorem releaseNeed_bli (k : RecordKind) (s : State) : (releaseNeed c x k s).1.bli = s.bli := by
  unfold releaseNeed; split
  · exact releaseEntry_bli c k _ s
  · rfl

theorem releaseLock_bli (k : RecordKind) (s : State) : (releaseLock c x k s).1.bli = s.bli := by
  unfold releaseLock; split
  · rfl
  · exact releaseNeed_bli c x k s

theorem releaseAll_bli (s : State) : (releaseAll c x s).1.bli = s.bli := by
  simp only [releaseAll, eachKind, releaseLock_bli, releaseNeed_bli]

end

theorem endCtx_bli {c : CtxId} {x : Txn} {s : State} (busy : s.txn c = some x) (code : ResultCode) (fields : List Octet) :
    (endCtx c code fields s).1.bli = s.bli := by
  rw [endCtx_busy busy, releaseAll_bli]; exact replied_bli x code fields s

/-- The last busy context ends on its deadline in a unit that has no fill: it is idle, and answers the pending QUIESCE. -/
theorem deadline_quiesces {s : State} {q : Octet} {c : CtxId} {x : Txn} (power : s.powered = true)
    (service : s.um.service = .quiescing) (pending : s.um.pendingQuiesce = some q) (busy : s.txn c = some x)
    (running : x.state ≠ .commit) (others : ∀ d, d ≠ c → s.txn d = none) (slots : ∀ i, (s.slot i).fill = none)
    (waiting : s.fu.waiting = []) : ∃ u : State, exec (.transactionDeadline c) s =
      .next (answer q 0x05 .done [] { u with um := { u.um with service := .quiesced, pendingQuiesce := none } }) ∧
        u.um = s.um ∧ u.bli = s.bli ∧ Idle u := by
  have ended := ended_of_hushed busy .timeout [] (.refl _) rfl
  have um : (endCtx c .timeout [] s).1.um = s.um := congrArg Outside.um (outside_endCtx c .timeout [] s)
  have fu := (noNew_endCtx c s .timeout []).fu
  have free : ∀ d, (endCtx c .timeout [] s).1.txn d = none := fun d => by
    by_cases own : d = c
    · rw [own]; exact ended.free
    · have card := ended.others d own
      rw [cardOf, cardOf, others d own] at card
      exact Option.map_eq_none_iff.mp card
  have idle : Idle (endCtx c .timeout [] s).1 :=
    ⟨free, fun i => by rw [slot_congr fu]; exact slots i, by rw [fu]; exact waiting⟩
  refine ⟨_, ?_, um, endCtx_bli busy .timeout [], idle⟩
  rw [exec_transactionDeadline power, deadlineFalls_running busy running, settle, runTasks_free free,
    settleQuiesce_idle (by rw [um]; exact service) (by rw [um]; exact pending) idle]

/-! ## QUIESCE, RESUME_SERVICE and FLUSH_CACHE (R81, R189, R190) -/

section
variable {s : State} (h : Manageable s) (seq : Octet)
include h

theorem exec_quiesce : exec (.quiesce seq) s = .next (manageQuiesce seq (counted s)) :=
  congrArg Host.Outcome.next (live_arriveMgmt h _ rfl (Nat.le_of_ble_eq_true rfl) (Nat.le_of_ble_eq_true rfl))

theorem exec_resumeService : exec (.resumeService seq) s = .next (manageResumeService seq (counted s)) :=
  congrArg Host.Outcome.next (live_arriveMgmt h _ rfl (Nat.le_of_ble_eq_true rfl) (Nat.le_of_ble_eq_true rfl))

theorem exec_flushCache : exec (.flushCache seq) s = .next (manageFlushCache seq (counted s)) :=
  congrArg Host.Outcome.next (live_arriveMgmt h _ rfl (Nat.le_of_ble_eq_true rfl) (Nat.le_of_ble_eq_true rfl))

end

section
variable (seq : Octet) {s : State}

theorem manageQuiesce_idle (normal : s.um.service = .normal) (idle : Idle s) : manageQuiesce seq s =
    answer seq 0x05 .done [] { s with um := { s.um with service := .quiesced } } := by
  simp only [manageQuiesce, normal, if_pos ((unitIdle_iff s).mpr idle)]; rfl

theorem manageQuiesce_busy (normal : s.um.service = .normal) (busy : ¬ Idle s) : manageQuiesce seq s =
    { s with um := { s.um with service := .quiescing, pendingQuiesce := some seq } } := by
  simp only [manageQuiesce, normal, if_neg (mt (unitIdle_iff s).mp busy)]; rfl

theorem manageQuiesce_quiescing (service : s.um.service = .quiescing) :
    manageQuiesce seq s = answer seq 0x05 .busy [] s := by simp only [manageQuiesce, service]; rfl

theorem manageQuiesce_quiesced (service : s.um.service = .quiesced) :
    manageQuiesce seq s = answer seq 0x05 .done [] s := by simp only [manageQuiesce, service]; rfl

theorem manageResumeService_alone (service : s.um.service ≠ .quiescing) : manageResumeService seq s =
    answer seq 0x06 .done [] { s with um := { s.um with service := .normal, pendingQuiesce := none } } := by
  unfold manageResumeService
  dsimp only; split
  · next quiescing _ => exact absurd quiescing service
  · rfl

theorem manageResumeService_cancels {q : Octet} (service : s.um.service = .quiescing)
    (pending : s.um.pendingQuiesce = some q) : manageResumeService seq s = answer seq 0x06 .done []
      (answer q 0x05 .cancelled [] { s with um := { s.um with service := .normal, pendingQuiesce := none } }) := by
  simp only [manageResumeService, service, pending]; rfl

theorem manageFlushCache_refused (service : s.um.service ≠ .quiesced) :
    manageFlushCache seq s = answer seq 0x07 .notQuiesced [] s := if_neg service

theorem manageFlushCache_quiesced (service : s.um.service = .quiesced) : manageFlushCache seq s =
    answer seq 0x07 .done [] { s with rc := ⟨s.rc.patron.flush, s.rc.title.flush, s.rc.item.flush⟩ } := if_pos service

end

/-- The link and the counters are no part of what makes the unit idle. -/
theorem idle_counted {s : State} : Idle (counted s) ↔ Idle s := Iff.rfl

/-- Settles O51: each command by the service state, and the QUIESCE that a deadline lets the unit answer. -/
theorem quiesceResumeFlush : Obligations.QuiesceResumeFlush := by
  refine ⟨fun s q => ⟨settleQuiesce_idle, settleQuiesce_waits, ?_⟩, fun s seq h => ?_⟩
  · intro c x power service pending busy running others slots waiting
    obtain ⟨u, runs, um, bli, idle⟩ := deadline_quiesces power service pending busy running others slots waiting
    obtain ⟨sameUm, sameBli⟩ := answer_um_bli q 0x05 .done []
      (s := { s with um := { s.um with service := .quiesced, pendingQuiesce := none } })
      (t := { u with um := { u.um with service := .quiesced, pendingQuiesce := none } }) (by rw [um]) bli
    exact ⟨_, runs, sameUm, sameBli, idle_of_noNew (noNew_answer q 0x05 .done [] _) idle⟩
  rw [exec_quiesce h, exec_resumeService h, exec_flushCache h]
  refine ⟨fun normal idle => ?_, fun normal busy => ?_, fun service => ?_, fun service => ?_, fun service => ?_,
    fun q service pending => ?_, fun service => ?_, fun service => ?_⟩
  · rw [manageQuiesce_idle seq (s := counted s) normal (idle_counted.mpr idle)]; rfl
  · rw [manageQuiesce_busy seq (s := counted s) normal (mt idle_counted.mp busy)]; rfl
  · rw [manageQuiesce_quiescing seq (s := counted s) service]
  · rw [manageQuiesce_quiesced seq (s := counted s) service]
  · rw [manageResumeService_alone seq (s := counted s) service]; rfl
  · rw [manageResumeService_cancels seq (s := counted s) service pending]; rfl
  · rw [manageFlushCache_refused seq (s := counted s) service]
  · refine ⟨{ counted s with rc := ⟨s.rc.patron.flush, s.rc.title.flush, s.rc.item.flush⟩ },
      congrArg Host.Outcome.next (manageFlushCache_quiesced seq (s := counted s) service), rfl, fun k n => ?_⟩
    have pool := flush_pool (counted s) k
    rw [show (counted s).pool k = s.pool k from rfl] at pool
    refine ⟨(congrArg (·.entry n) pool).trans (flush_entry _ n), (congrArg Pool.queue pool).trans rfl,
      (congrArg Pool.lru pool).trans rfl, ?_⟩
    exact (congrArg (·.entries.length) pool).trans (List.length_map _)

end Sys2Proof.RecordCache

namespace Sys2Proof.RecordCache

open Sys2Proof Sys2Proof.Machine Sys2Proof.Safety Sys2Proof.KioskLanes Sys2Proof.Transactions

/-! ## The copy in an entry that a context holds (R79, R80) -/

section
variable {s : State} {c : CtxId} {k : RecordKind} {n : Nat} {copy : Copy}

theorem mapHeldCopy_valid {ws : List CtxId} (is : s.entry k n = .valid copy (some c) ws) (f : Copy → Copy) :
    mapHeldCopy c k n f s = s.setEntry k n (.valid (f copy) (some c) ws) := by
  simp only [mapHeldCopy, is, if_pos]

theorem mapHeldCopy_transient {tainted : Bool} (is : s.entry k n = .transient copy tainted c) (f : Copy → Copy) :
    mapHeldCopy c k n f s = s.setEntry k n (.transient (f copy) tainted c) := by
  simp only [mapHeldCopy, is, if_pos]

theorem holdsEntry_iff : holdsEntry c k n s = true ↔ (∃ copy ws, s.entry k n = .valid copy (some c) ws) ∨
    ∃ copy tainted, s.entry k n = .transient copy tainted c := by
  unfold holdsEntry
  split
  · next copy o ws is => simp [is]
  · next copy tainted o is => simp [is]
  · next valid transient =>
    refine ⟨nofun, ?_⟩
    rintro (⟨copy, ws, is⟩ | ⟨copy, tainted, is⟩)
    · exact absurd is (valid _ _ _)
    · exact absurd is (transient _ _ _)

theorem mapHeldCopy_unheld (h : holdsEntry c k n s = false) (f : Copy → Copy) : mapHeldCopy c k n f s = s := by
  unfold holdsEntry at h
  unfold mapHeldCopy
  split
  · next is => rw [is] at h; exact if_neg (of_decide_eq_false h)
  · next is => rw [is] at h; exact if_neg (of_decide_eq_false h)
  · rfl

/-- No other entry changes. -/
theorem mapHeldCopy_cases (c : CtxId) (k : RecordKind) (n : Nat) (f : Copy → Copy) (s : State) :
    mapHeldCopy c k n f s = s ∨ ∃ e, mapHeldCopy c k n f s = s.setEntry k n e := by
  unfold mapHeldCopy; repeat' split
  · exact .inr ⟨_, rfl⟩
  · exact .inl rfl
  · exact .inr ⟨_, rfl⟩
  · exact .inl rfl
  · exact .inl rfl

theorem mapHeldCopy_entry_ne {m : Nat} (other : m ≠ n) (f : Copy → Copy) :
    (mapHeldCopy c k n f s).entry k m = s.entry k m := by
  rcases mapHeldCopy_cases c k n f s with same | ⟨e, is⟩
  · rw [same]
  · rw [is, State.entry_setEntry_ne s k e other.symm]

theorem mapHeldCopy_pool_ne {j : RecordKind} (other : j ≠ k) (f : Copy → Copy) :
    (mapHeldCopy c k n f s).pool j = s.pool j := by
  rcases mapHeldCopy_cases c k n f s with same | ⟨e, is⟩
  · rw [same]
  · rw [is]; exact State.pool_setPool_ne s _ other.symm

theorem mapHeldCopy_lru (f : Copy → Copy) : ((mapHeldCopy c k n f s).pool k).lru = (s.pool k).lru := by
  rcases mapHeldCopy_cases c k n f s with same | ⟨e, is⟩
  · rw [same]
  · rw [is, State.setEntry, State.pool_setPool]; rfl

theorem entry_mapHeldCopy_valid {ws : List CtxId} {new : Copy} (is : s.entry k n = .valid copy (some c) ws)
    (f : Copy → Copy) (changes : f copy = new) : (mapHeldCopy c k n f s).entry k n = .valid new (some c) ws := by
  rw [mapHeldCopy_valid is, changes, State.entry_setEntry s k n _ (lt_of_entry (by rw [is]; nofun))]

theorem entry_mapHeldCopy_transient {tainted : Bool} {new : Copy} (is : s.entry k n = .transient copy tainted c)
    (f : Copy → Copy) (changes : f copy = new) : (mapHeldCopy c k n f s).entry k n = .transient new tainted c := by
  rw [mapHeldCopy_transient is, changes, State.entry_setEntry s k n _ (lt_of_entry (by rw [is]; nofun))]

end

/-! ## One entry of an UPDATE (R80, R112, R113, R115) -/

section
variable {s : State} {c : CtxId} {e : UpdateEntry} {v : Version} {image : Image}

theorem applyEntry_checked (checked : e.image = none) : applyEntry c e v s = s := by
  simp only [applyEntry, checked]

theorem applyEntry_unheld (h : holdsEntry c e.kind e.entry s = false) : applyEntry c e v s = s := by
  unfold applyEntry; split
  · rfl
  · exact if_neg (by rw [h]; nofun)

theorem applyEntry_held (changed : e.image = some image) (h : holdsEntry c e.kind e.entry s = true) :
    applyEntry c e v s = (mapHeldCopy c e.kind e.entry (·.writeThrough image v) s).touch e.kind e.entry := by
  simp only [applyEntry, changed, if_pos h]

theorem entry_applyEntry (changed : e.image = some image) (l : RecordKind) (m : Nat) :
    (applyEntry c e v s).entry l m = (mapHeldCopy c e.kind e.entry (·.writeThrough image v) s).entry l m := by
  cases h : holdsEntry c e.kind e.entry s with
  | true => rw [applyEntry_held changed h, State.entry_touch]
  | false => rw [applyEntry_unheld h, mapHeldCopy_unheld h]

theorem entry_applyEntry_ne {m : Nat} (other : m ≠ e.entry) :
    (applyEntry c e v s).entry e.kind m = s.entry e.kind m := by
  cases image : e.image with
  | none => rw [applyEntry_checked image]
  | some new => rw [entry_applyEntry image, mapHeldCopy_entry_ne other]

theorem applyEntry_pool_ne {j : RecordKind} (other : j ≠ e.kind) : (applyEntry c e v s).pool j = s.pool j := by
  unfold applyEntry; repeat' split
  · rfl
  · exact (State.pool_setPool_ne _ _ other.symm).trans (mapHeldCopy_pool_ne other _)
  · rfl

/-- The written entry moves to most recent (R112). -/
theorem applyEntry_lru (changed : e.image = some image) (h : holdsEntry c e.kind e.entry s = true)
    (mem : e.entry ∈ (s.pool e.kind).lru) :
    ((applyEntry c e v s).pool e.kind).lru = (s.pool e.kind).lru.erase e.entry ++ [e.entry] := by
  rw [applyEntry_held changed h, touch_lru (by rw [mapHeldCopy_lru]; exact mem), mapHeldCopy_lru]

end

/-! ## What is written into a copy (R77-R80, R112, R113, R115) -/

theorem writeThrough_eq (copy : Copy) (image : Image) (v : Version) : copy.writeThrough image v = { copy with
    image := image
    version := v
    stale := copy.stale.bind fun m => if v.toNat < m.toNat then some m else none } := by
  unfold Copy.writeThrough; cases copy.stale <;> rfl

theorem notice_eq (copy : Copy) (v : Version) :
    copy.notice v = if v.toNat ≤ copy.version.toNat then copy else marked copy v := by
  split
  · next le => exact if_neg (Nat.not_lt.mpr le)
  · next lt => exact notice_eq_marked (Nat.not_le.mp lt)

theorem forceStale_eq (copy : Copy) : copy.forceStale = { copy with stale := some (copy.stale.getD copy.version) } := by
  unfold Copy.forceStale
  split
  · next flag => rw [flag]; rfl
  · next flag => rw [flag, Option.getD_some, ← flag]

/-- Settles O35: each entry in turn, by whether the context holds it and, for an APPLIED result, whether it is CHANGED. -/
theorem outcomeSettlesEntries : Obligations.OutcomeSettlesEntries := by
  refine ⟨fun s c e v es evs => ⟨rfl, rfl, rfl, rfl, rfl, rfl⟩, ?_⟩
  rintro s c k n e v rfl rfl
  refine ⟨applyEntry_checked, fun copy ws is => ⟨fun image changed => ?_, ?_, ?_⟩,
    fun copy tainted is => ⟨fun image changed => ?_, ?_, ?_⟩, fun image changed holds mem => applyEntry_lru changed holds mem,
    fun valid transient => ?_, fun m other => ⟨?_, ?_, ?_⟩, fun j other => ⟨?_, ?_, ?_⟩⟩
  · exact (entry_applyEntry changed _ _).trans (entry_mapHeldCopy_valid is _ (writeThrough_eq copy image v))
  · exact entry_mapHeldCopy_valid is (·.notice v) (notice_eq copy v)
  · exact entry_mapHeldCopy_valid is Copy.forceStale (forceStale_eq copy)
  · exact (entry_applyEntry changed _ _).trans (entry_mapHeldCopy_transient is _ (writeThrough_eq copy image v))
  · exact entry_mapHeldCopy_transient is (·.notice v) (notice_eq copy v)
  · exact entry_mapHeldCopy_transient is Copy.forceStale (forceStale_eq copy)
  · have unheld : holdsEntry c e.kind e.entry s = false := Bool.eq_false_iff.mpr fun holds => by
      rcases holdsEntry_iff.mp holds with ⟨copy, ws, is⟩ | ⟨copy, tainted, is⟩
      · exact valid copy ws is
      · exact transient copy tainted is
    exact ⟨applyEntry_unheld unheld, mapHeldCopy_unheld unheld _, mapHeldCopy_unheld unheld _⟩
  · exact entry_applyEntry_ne other
  · exact mapHeldCopy_entry_ne other _
  · exact mapHeldCopy_entry_ne other _
  · exact applyEntry_pool_ne other
  · exact mapHeldCopy_pool_ne other _
  · exact mapHeldCopy_pool_ne other _

end Sys2Proof.RecordCache

namespace Sys2Proof.RecordCache

open Sys2Proof Sys2Proof.Machine Sys2Proof.Safety Sys2Proof.KioskLanes Sys2Proof.Transactions

/-! ## Contexts that end together (R57, R103) -/

/-- The reply offered for a transaction that ends with the code. -/
def offered (code : ResultCode) (s : State) (x : Txn) : State :=
  if x.abandoned then s else offerReply x.lane x.drop (replyBody x.request.kindCode x.kioskTag code []) s

/-- The contexts of a list ended, their replies in its order; no other context ended or changed hands. -/
structure EndedEach (ws : List CtxId) (code : ResultCode) (s t : State) : Prop where
  generations : ∀ c, (t.ctx c).gen = (s.ctx c).gen
  counters : t.dct.counters =
    (ws.filterMap s.txn).foldl (fun counters _ => counters.advance code.outcomeCounter) s.dct.counters
  lanes : t.lanes = ((ws.filterMap s.txn).foldl (offered code) s).lanes
  others : ∀ c, c ∉ ws → cardOf t c = cardOf s c
  commits : t.cu = s.cu
  link : t.bli.counters = s.bli.counters

/-- What is folded over transactions is told by their cards. -/
theorem foldl_of_cards {α : Type} {f : α → Txn → α} (told : ∀ a x y, card x = card y → f a x = f a y) {l m : List Txn}
    (cards : l.map card = m.map card) (a : α) : l.foldl f a = m.foldl f a := by
  induction l generalizing m a with
  | nil => rw [List.map_eq_nil_iff.mp cards.symm]
  | cons x l ih =>
    obtain ⟨y, m, rfl, same, cards⟩ := List.map_eq_cons_iff.mp cards.symm
    rw [List.foldl_cons, List.foldl_cons, told a x y same.symm]
    exact ih cards.symm _

theorem offered_of_card (code : ResultCode) (s : State) (x y : Txn) (same : card x = card y) :
    offered code s x = offered code s y := by
  have lane : x.lane = y.lane := congrArg Card.lane same
  have drop : x.drop = y.drop := congrArg Card.drop same
  have tag : x.kioskTag = y.kioskTag := congrArg Card.kioskTag same
  have request : x.request = y.request := congrArg Card.request same
  have abandoned : x.abandoned = y.abandoned := congrArg Card.abandoned same
  rw [offered, offered, lane, drop, tag, request, abandoned]

theorem offered_lanes (code : ResultCode) {s t : State} (lanes : t.lanes = s.lanes) (x : Txn) :
    (offered code t x).lanes = (offered code s x).lanes := by
  unfold offered; split
  · exact lanes
  · exact congrArg (fun l : Vector Lane 4 => l.set x.lane (l[x.lane].offer x.drop _)) lanes

theorem foldl_offered_lanes (code : ResultCode) (l : List Txn) {s t : State} (lanes : t.lanes = s.lanes) :
    (l.foldl (offered code) t).lanes = (l.foldl (offered code) s).lanes := by
  induction l generalizing s t with
  | nil => exact lanes
  | cons x l ih => exact ih (offered_lanes code lanes x)

theorem endCtx_free {c : CtxId} {s : State} (free : s.txn c = none) (code : ResultCode) (fields : List Octet) :
    endCtx c code fields s = (s, []) := by rw [endCtx, free]

theorem endCtx_gen (c d : CtxId) (code : ResultCode) (fields : List Octet) (s : State) :
    ((endCtx c code fields s).1.ctx d).gen = (s.ctx d).gen := by
  cases busy : s.txn c with
  | none => rw [endCtx_free busy]
  | some x => rw [endCtx_busy busy, (still_releaseAll none).gen d, replied_ctx]

theorem endedEach_endEach (code : ResultCode) {ws : List CtxId} (once : ws.Nodup) (s : State) :
    EndedEach ws code s (endEach code ws s).1 := by
  induction ws generalizing s with
  | nil => exact ⟨fun _ => rfl, rfl, rfl, fun _ _ => rfl, rfl, rfl⟩
  | cons c ws ih =>
    obtain ⟨first, once⟩ := List.nodup_cons.mp once
    obtain ⟨generations, counters, lanes, others, commits, link⟩ := ih once (endCtx c code [] s).1
    rw [endEach]
    cases busy : s.txn c with
    | none =>
      rw [endCtx_free busy] at generations counters lanes others commits link
      rw [endCtx_free busy]
      refine ⟨generations, ?_, ?_, fun d out => others d (List.not_mem_of_not_mem_cons out), commits, link⟩
      · rw [List.filterMap_cons_none busy]; exact counters
      · rw [List.filterMap_cons_none busy]; exact lanes
    | some x =>
      have ended := ended_of_hushed busy code [] (.refl _) rfl
      have cards : (ws.filterMap (endCtx c code [] s).1.txn).map card = (ws.filterMap s.txn).map card := by
        rw [List.map_filterMap, List.map_filterMap]
        exact List.filterMap_congr fun d mem => ended.others d fun same => first (same ▸ mem)
      refine ⟨fun d => (generations d).trans (endCtx_gen c d code [] s), counters.trans ?_, lanes.trans ?_,
        fun d out => ?_, commits.trans ended.commits, link.trans ended.apart.link⟩
      · rw [List.filterMap_cons_some busy, List.foldl_cons, ended.counters]
        exact foldl_of_cards (fun _ _ _ _ => rfl) cards _
      · rw [List.filterMap_cons_some busy, List.foldl_cons, foldl_of_cards (offered_of_card code) cards]
        exact foldl_offered_lanes code _ ended.lanes
      · obtain ⟨other, out⟩ := not_or.mp (List.mem_cons.not.mp out)
        exact (others d out).trans (ended.others d other)

/-- What is hushed may follow. -/
theorem EndedEach.hushed {ws : List CtxId} {code : ResultCode} {s t u : State} (h : EndedEach ws code s t)
    (follows : Hushed t u) : EndedEach ws code s u :=
  ⟨fun c => (follows.gen c).trans (h.generations c), follows.counters.trans h.counters, follows.lanes.trans h.lanes,
    fun c out => (follows.cards c).trans (h.others c out), follows.cu.trans h.commits, follows.link.trans h.link⟩

/-! ## One context's turn among those that end (R57) -/

theorem without_replied (c : CtxId) (x : Txn) (code : ResultCode) (fields : List Octet) (s : State) :
    Without c s (replied x code fields s) := by
  unfold replied; split <;> exact .of_same rfl rfl rfl

theorem without_endCtx {c d : CtxId} (other : d ≠ c) (code : ResultCode) (fields : List Octet) (s : State) :
    Without c s (endCtx d code fields s).1 := by
  cases busy : s.txn d with
  | none => rw [endCtx_free busy]; exact .refl c s
  | some x =>
    rw [endCtx_busy busy]
    exact (((without_replied c x code fields s).trans (without_leaveLists _)).trans
      (without_setTxn other _ none)).trans (without_releaseAll other x _)

theorem without_endEach (code : ResultCode) {c : CtxId} {ws : List CtxId} (out : c ∉ ws) (s : State) :
    Without c s (endEach code ws s).1 := by
  induction ws generalizing s with
  | nil => exact .refl c s
  | cons d ws ih =>
    obtain ⟨other, out⟩ := not_or.mp (List.mem_cons.not.mp out)
    exact (without_endCtx (Ne.symm other) code [] s).trans (ih out _)

/-- Each context of the list ends once; before and after that the others end without it. -/
theorem endEach_turn (code : ResultCode) {c : CtxId} {ws : List CtxId} (mem : c ∈ ws) (once : ws.Nodup) (s : State) :
    ∃ u, Without c s u ∧ Without c (endCtx c code [] u).1 (endEach code ws s).1 := by
  induction ws generalizing s with
  | nil => cases mem
  | cons d ws ih =>
    obtain ⟨first, once⟩ := List.nodup_cons.mp once
    rw [endEach]
    rcases List.mem_cons.mp mem with rfl | later
    · exact ⟨s, .refl c s, without_endEach code first _⟩
    · obtain ⟨u, between, after⟩ := ih later once (endCtx d code [] s).1
      exact ⟨u, (without_endCtx (fun same : d = c => first (same ▸ later)) code [] s).trans between, after⟩

/-- What a context lets go of at its end it lets go of from any state that the others' events lead on from. -/
theorem letGo_of_before {c : CtxId} {x y : Txn} {s u t : State} (before : Without c s u) (hx : s.txn c = some x)
    (hy : u.txn c = some y) (h : LetGo c y u t) : LetGo c x s t := by
  intro k key n need waits
  have free : ∀ m, c ∉ lockWaiters (s.entry k m) := fun m => by
    cases e : s.entry k m with
    | valid copy o ws => exact waits m copy o ws e
    | empty => exact List.not_mem_nil
    | filling key ws => exact List.not_mem_nil
    | transient copy tainted o => exact List.not_mem_nil
  have needs : y.need k = some ⟨key, some n, true⟩ := by
    have same := before.needs k free
    rw [needOf, needOf, hy, hx] at same
    exact (Option.some.inj same).trans need
  have still : ∀ m copy o ws, u.entry k m = .valid copy o ws → c ∉ ws := fun m copy o ws is => by
    have off := (before.entries k m).locks (free m)
    rw [is] at off; exact off
  obtain ⟨unlocked, unowned, vacated⟩ := h k key n needs still
  refine ⟨unlocked, unowned, fun held => vacated ?_⟩
  have emptied : EmptiedBy c (u.entry k n) := (before.entries k n).emptied (by
    rcases held with ⟨copy, tainted, e⟩ | ⟨copy, ws, e, stale⟩ <;> rw [e]
    · rfl
    · exact ⟨rfl, stale⟩)
  cases e : u.entry k n with
  | empty => rw [e] at emptied; exact emptied.elim
  | filling => rw [e] at emptied; exact emptied.elim
  | transient copy tainted o => rw [e] at emptied; exact .inl ⟨copy, tainted, emptied ▸ rfl⟩
  | valid copy o ws =>
    rw [e] at emptied
    obtain ⟨rfl, stale⟩ := emptied
    exact .inr ⟨copy, ws, rfl, stale⟩

/-- A context of the list is FREE, off every list, and has let go of what it held, whatever goes on without it. -/
theorem freed_endEach (code : ResultCode) {c : CtxId} {ws : List CtxId} (mem : c ∈ ws) (once : ws.Nodup) {s t : State}
    (after : (endEach code ws s).1.txn c = none → Without c (endEach code ws s).1 t) :
    t.txn c = none ∧ ∀ x, s.txn c = some x → OnNoList t c ∧ LetGo c x s t := by
  obtain ⟨u, before, between⟩ := endEach_turn code mem once s
  cases hy : u.txn c with
  | none =>
    have free := (show (endCtx c code [] u).1.txn c = none by rw [endCtx_free hy]; exact hy)
    have done := between.free free
    refine ⟨(after done).free done, fun x busy => ?_⟩
    obtain ⟨y, hy', -⟩ := txn_of_card before.card busy
    cases hy.symm.trans hy'
  | some y =>
    rw [endCtx_busy hy] at between
    have done := between.free (txn_offLists c y _)
    have rest := between.trans (after done)
    refine ⟨(after done).free done, fun x busy => ⟨rest.onNoList (onNoList_offLists c y _ none), ?_⟩⟩
    have after' := letGo_of_without rest
    exact letGo_of_before (before.trans (without_replied c y code [] u)) busy (by rw [replied_txn]; exact hy) after'

end Sys2Proof.RecordCache

namespace Sys2Proof.RecordCache

open Sys2Proof Sys2Proof.Machine Sys2Proof.Safety Sys2Proof.KioskLanes Sys2Proof.Transactions

/-! ## The slot of a fill while contexts go on (R85) -/

/-- A fill as a lookup gives it to FU: no version is noted. -/
def NewFill (x : FillSlot) : Prop := ∃ k key n owed, x.fill = some { freshFill k key n with owed := owed }

/-- What lookups do to slot `i` and the fill waiting list: an IDLE slot may take up a new fill at its next generation, and
new fills join the tail of the list. -/
structure Refills (i : SlotId) (s t : State) : Prop where
  slot : t.slot i = s.slot i ∨ (s.slot i).fill = none ∧ (t.slot i).gen = (s.slot i).gen + 1 ∧ NewFill (t.slot i)
  waiting : ∃ more, t.fu.waiting = s.fu.waiting ++ more ∧ ∀ w ∈ more, w.highest = 0

theorem Refills.of_same {i : SlotId} {s t : State} (fu : t.fu = s.fu) : Refills i s t :=
  ⟨.inl (slot_congr fu i), [], by rw [fu, List.append_nil], nofun⟩

theorem Refills.fu {i : SlotId} {s t u : State} (h : Refills i s t) (fu : u.fu = t.fu) : Refills i s u :=
  ⟨by rw [slot_congr fu]; exact h.slot, by rw [fu]; exact h.waiting⟩

theorem Refills.busy {i : SlotId} {s t : State} (h : Refills i s t) (fill : (s.slot i).fill ≠ none) :
    t.slot i = s.slot i := h.slot.resolve_right fun taken => fill taken.1

theorem refills_giveFill {i : SlotId} {s t : State} (h : Refills i s t) (k : RecordKind) (n : Nat) (key : Key) :
    Refills i s (giveFill ⟨k, n, key, 0⟩ t) := by
  cases idle : idleSlot t with
  | none =>
    rw [giveFill_waits idle]
    obtain ⟨more, is, fresh⟩ := h.waiting
    refine ⟨h.slot, more ++ [⟨k, n, key, 0⟩], (congrArg (· ++ _) is).trans (List.append_assoc ..), fun w mem => ?_⟩
    rcases List.mem_append.mp mem with before | last
    · exact fresh w before
    · rw [List.mem_singleton.mp last]
  | some j =>
    have free := idleSlot_idle idle
    rw [giveFill_idle idle]
    obtain ⟨slots, bli, moved⟩ := asking_moves j ((t.slot j).gen + 1) { freshFill k key n with highest := 0 } 0 k.segments t
    refine ⟨?_, by rw [moved]; exact h.waiting⟩
    by_cases own : j = i
    · subst own
      obtain ⟨owed, given⟩ := asking_slot j ((t.slot j).gen + 1) { freshFill k key n with highest := 0 } 0 k.segments t
      have same : t.slot j = s.slot j := h.slot.resolve_right fun taken => by
        obtain ⟨k', key', n', owed', fill⟩ := taken.2.2
        cases free.symm.trans fill
      rw [given, ← same]
      exact .inr ⟨free, rfl, k, key, n, owed, rfl⟩
    · rw [asking_slot_ne own]; exact h.slot

theorem refills_tasks (i : SlotId) (s : State) : TasksKept (Refills i s) where
  noNew h new := h.fu new.fu
  allocates h _ _ _ := refills_giveFill (h.fu (u := allocated _ _ _ _ _) rfl) _ _ _

theorem settleQuiesce_fu (s : State) : (settleQuiesce s).fu = s.fu := by
  unfold settleQuiesce answer pumpReplies
  dsimp only
  repeat' split
  all_goals rfl

/-! ## The end of a fill that has failed (R96, R103) -/

section
variable (i : SlotId) (f : Fill) (code : ResultCode) (s : State)

/-- The waiters have ended and the entry is EMPTY. -/
def vacatedFill : State := (endEach code (fillWaiters f.kind f.entry s) s).1.setEntry f.kind f.entry .empty

theorem vacatedFill_fu : (vacatedFill f code s).fu = s.fu := (noNew_endEach s code _).fu

theorem hushed_failFill : Hushed (endEach code (fillWaiters f.kind f.entry s) s).1 (settle (failFill i f code s)) := by
  have emptied : Hushed (endEach code (fillWaiters f.kind f.entry s) s).1 (vacatedFill f code s) := .of_eq rfl rfl rfl
  exact ((emptied.trans (hushed_offerRoom f.kind _)).trans (hushed_finishSlot i _)).trans
    (hushed_settle (failFill i f code s) (quiet_endEach code _ s))

/-- The slot is IDLE, or has taken up the oldest waiting fill, or one that the failure set off. -/
theorem failFill_slot (fill : (s.slot i).fill = some f) :
    (s.fu.waiting = [] → (settle (failFill i f code s)).slot i = { s.slot i with fill := none } ∨
      ((settle (failFill i f code s)).slot i).gen = (s.slot i).gen + 1 ∧ NewFill ((settle (failFill i f code s)).slot i)) ∧
    ∀ w rest, s.fu.waiting = w :: rest → ((settle (failFill i f code s)).slot i).gen = (s.slot i).gen + 1 ∧
      ∃ owed, ((settle (failFill i f code s)).slot i).fill =
        some { freshFill w.kind w.key w.entry with highest := w.highest, owed := owed } := by
  let u := offerRoom f.kind (vacatedFill f code s)
  have room : Refills i s u := (refills_tasks i s).offerRoom f.kind (.of_same (vacatedFill_fu f code s))
  have same : u.slot i = s.slot i := room.busy (by rw [fill]; nofun)
  have after : Refills i (finishSlot i u) (settle (failFill i f code s)) :=
    ((refills_tasks i _).runTasks _ _ (.of_same rfl)).fu (settleQuiesce_fu _)
  have takes : ∀ w ws, u.fu.waiting = w :: ws → ∃ owed, (settle (failFill i f code s)).slot i =
      ⟨(s.slot i).gen + 1, some { freshFill w.kind w.key w.entry with highest := w.highest, owed := owed }, true⟩ :=
    fun w ws waiting => by
      obtain ⟨owed, taken⟩ := asking_slot i ((u.slot i).gen + 1)
        { freshFill w.kind w.key w.entry with highest := w.highest } 0 w.kind.segments
        { u with fu := { u.fu with waiting := ws } }
      rw [← finishSlot_takes waiting, same] at taken
      exact ⟨owed, (after.busy (by rw [taken]; nofun)).trans taken⟩
  obtain ⟨more, waits, fresh⟩ := room.waiting
  refine ⟨fun nobody => ?_, fun w rest waiting => ?_⟩
  · rw [nobody, List.nil_append] at waits
    cases more with
    | nil =>
      have idle : (finishSlot i u).slot i = { s.slot i with fill := none } := by
        rw [finishSlot_idle waits, State.slot_setSlot, same]
      rcases after.slot with still | ⟨-, gen, new⟩
      · exact .inl (still.trans idle)
      · exact .inr ⟨gen.trans (by rw [idle]), new⟩
    | cons w more =>
      obtain ⟨owed, taken⟩ := takes w more waits
      rw [taken, fresh w List.mem_cons_self]
      exact .inr ⟨rfl, w.kind, w.key, w.entry, owed, rfl⟩
  · rw [waiting] at waits
    obtain ⟨owed, taken⟩ := takes w (rest ++ more) waits
    rw [taken]; exact ⟨rfl, owed, rfl⟩

end

section
variable {i : SlotId} {f : Fill} {ws : List CtxId} {s : State} (filling : s.entry f.kind f.entry = .filling f.key ws)
include filling

theorem entry_endEach (code : ResultCode) (cs : List CtxId) :
    ∃ ws', (endEach code cs s).1.entry f.kind f.entry = .filling f.key ws' :=
  (((noNew_endEach s code cs).pools f.kind).entries f.entry).filling f.key ws filling

/-- The entry is EMPTY, or has been allocated again. -/
theorem failFill_vacated (i : SlotId) (code : ResultCode) : Vacated (settle (failFill i f code s)) f.kind f.entry := by
  obtain ⟨ws', is⟩ := entry_endEach filling code (fillWaiters f.kind f.entry s)
  have empty : (vacatedFill f code s).entry f.kind f.entry = .empty :=
    State.entry_setEntry _ _ _ _ (lt_of_entry (by rw [is]; nofun))
  have quiet : Spared (fun _ => False) (endEach code (fillWaiters f.kind f.entry s) s).2 := fun _ _ => id
  have room : Stays (fun _ => False) (vacatedFill f code s) (offerRoom f.kind (vacatedFill f code s)) :=
    stays_runTasks _ (fun _ => False.elim) fun _ _ => id
  have offered := room.vacated (k := f.kind) (n := f.entry) (.inl empty)
  have finished : Vacated (finishSlot i (offerRoom f.kind (vacatedFill f code s))) f.kind f.entry := by
    unfold Vacated; rw [finishSlot_entry]; exact offered
  exact (stays_settle (r := failFill i f code s) (fun _ => False.elim) quiet).vacated finished

/-- Once a waiter has ended, what follows goes on without it. -/
theorem without_failFill {c : CtxId} {code : ResultCode} (i : SlotId)
    (free : (endEach code (fillWaiters f.kind f.entry s) s).1.txn c = none) :
    Without c (endEach code (fillWaiters f.kind f.entry s) s).1 (settle (failFill i f code s)) := by
  obtain ⟨ws', is⟩ := entry_endEach filling code (fillWaiters f.kind f.entry s)
  have emptied : Without c (endEach code (fillWaiters f.kind f.entry s) s).1 (vacatedFill f code s) := by
    refine without_setEntry _ _ _ _ ?_
    rw [is]
    exact ⟨fun _ => List.not_mem_nil, fun _ => List.not_mem_nil, fun _ => id, fun _ => trivial, False.elim⟩
  have room : Without c (vacatedFill f code s) (offerRoom f.kind (vacatedFill f code s)) :=
    without_runTasks _ _ (fun t mem => by rw [List.mem_singleton.mp mem]; rfl) (emptied.free free)
  have finished : Without c (offerRoom f.kind (vacatedFill f code s))
      (finishSlot i (offerRoom f.kind (vacatedFill f code s))) := by
    obtain ⟨fu, bli, moved⟩ := finishSlot_moves i (offerRoom f.kind (vacatedFill f code s))
    rw [moved]; exact .of_same rfl rfl rfl
  have before := (emptied.trans room).trans finished
  exact before.trans (without_settle (failFill i f code s) (quiet_endEach code _ s) (before.free free))

/-- The failure of a fill, whatever waits for it. -/
theorem fillFailed (fill : (s.slot i).fill = some f) (once : ws.Nodup) (code : ResultCode) :
    FillFailed i f ws code s (settle (failFill i f code s)) := by
  have waiters := fillWaiters_filling filling
  obtain ⟨idle, takenUp⟩ := failFill_slot i f code s fill
  have hushed := hushed_failFill i f code s
  have without := fun c => without_failFill (c := c) (code := code) filling i
  rw [waiters] at hushed without
  obtain ⟨generations, counters, lanes, others, commits, link⟩ := (endedEach_endEach code once s).hushed hushed
  refine ⟨fun c mem => freed_endEach code mem once (without c), generations, counters, lanes, others,
    failFill_vacated filling i code, idle, takenUp, commits, apart_of_steady ?_ link⟩
  rw [steady_settle, steady_of_outside (outside_failFill i f code s)]

/-- Nobody waits, for the fill, for room or for a slot: the entry is EMPTY and the slot IDLE. -/
theorem failFill_alone (alone : ws = []) (queue : (s.pool f.kind).queue = []) (waiting : s.fu.waiting = [])
    (service : s.um.service ≠ .quiescing) (code : ResultCode) : settle (failFill i f code s) =
      (s.setEntry f.kind f.entry .empty).setSlot i { s.slot i with fill := none } := by
  have queue' : ((s.setEntry f.kind f.entry .empty).pool f.kind).queue = [] := by
    rw [State.setEntry, State.pool_setPool]; exact queue
  rw [failFill, fillWaiters_filling filling, alone]
  simp only [endEach]
  rw [offerRoom_nobody queue', finishSlot_idle (s := s.setEntry f.kind f.entry .empty) waiting]
  exact settle_nothing service

end

/-! ## ABSENT, DEFER and FETCH_TIMEOUT (R87, R101, R102, R103) -/

section
variable {s : State} (h : Listening s)
include h

theorem exec_absent (tag : Tag) : exec (.absent tag) s = .next (takeAbsent tag (counted s)) := by
  refine congrArg Host.Outcome.next ?_
  rw [live_powered h.1]
  exact arrive_listening _ _ s h rfl (Nat.zero_le _) rfl

theorem exec_defer (tag : Tag) (code : Octet) : exec (.defer tag code) s = .next (takeDefer tag code (counted s)) := by
  refine congrArg Host.Outcome.next ?_
  rw [live_powered h.1]
  exact arrive_listening _ _ s h rfl (Nat.le_of_ble_eq_true rfl) rfl

end

theorem exec_fetchTimeout {s : State} (h : s.powered = true) (i : SlotId) :
    exec (.fetchTimeout i) s = .next (fetchTimerOut i s) := congrArg Host.Outcome.next (live_powered h _)

theorem tagOf_toNat (i : SlotId) (gen : Gen) : (tagOf i gen).toNat = i.val * 4096 + gen.toNat := by
  have slot := i.isLt
  have small := gen.isLt
  rw [tagOf, BitVec.toNat_ofNat, Nat.mod_eq_of_lt (by omega)]

/-- A tag that is live for a slot names it at its generation (R84). -/
theorem liveSlot_names {tag : Tag} {s : State} {i : SlotId} {f : Fill} (h : liveSlot tag s = some (i, f)) :
    tag.toNat / 4096 = i.val ∧ (s.slot i).gen.toNat = tag.toNat % 4096 := by
  unfold liveSlot at h
  split at h
  · dsimp only at h
    split at h
    · split at h
      · next gen =>
        obtain ⟨rfl, rfl⟩ := Prod.mk.inj (Option.some.inj h)
        refine ⟨rfl, ?_⟩
        rw [gen, tagGen, BitVec.toNat_ofNat, Nat.mod_mod]
      · cases h
    · cases h
  · cases h

section
variable {s : State} {i : SlotId} {f : Fill} (fill : (s.slot i).fill = some f)
include fill

theorem liveSlot_tagOf : liveSlot (tagOf i (s.slot i).gen) s = some (i, f) := by
  have small := (s.slot i).gen.isLt
  have tag := tagOf_toNat i (s.slot i).gen
  exact liveSlot_some (by omega) (by omega) fill

variable (requested : f.phase = .requested)
include requested

theorem fetchTimerOut_requested : fetchTimerOut i s = settle (failFill i f .uplinkTimeout s) := by
  simp only [fetchTimerOut, fill, if_pos requested]

theorem takeAbsent_requested : takeAbsent (tagOf i (s.slot i).gen) s = settle (failFill i f f.kind.unknownCode s) := by
  simp only [takeAbsent, liveSlot_tagOf fill, if_pos requested]

theorem takeDefer_fifth (fifth : 4 ≤ f.defers) (code : Octet) :
    takeDefer (tagOf i (s.slot i).gen) code s = settle (failFill i f .uplinkBusy s) := by
  simp only [takeDefer, liveSlot_tagOf fill, requested, not_true_eq_false, ne_eq, if_false, if_pos fifth]

end

section
variable {s : State} {tag : Tag} (late : ∀ i f, liveSlot tag s = some (i, f) → f.phase ≠ .requested)
include late

theorem takeAbsent_late : takeAbsent tag s = s.countLink .lateTags := by
  unfold takeAbsent; split
  · next i f live => exact if_neg (late i f live)
  · rfl

theorem takeDefer_late (code : Octet) : takeDefer tag code s = s.countLink .lateTags := by
  unfold takeDefer; split
  · next i f live => exact if_pos (late i f live)
  · rfl

end

/-- Settles O31: the three failures are one, with and without waiters; an answer that is live for no slot in REQUESTED is
late. -/
theorem fillsFail : Obligations.FillsFail := by
  refine ⟨fun s i f listening fill requested queue waiting service filling => ?_,
    fun s i f ws listening fill requested filling once => ?_, fun s tag code listening dead => ?_⟩
  · have alone := failFill_alone (s := s) (i := i) filling rfl queue waiting service
    have alone' := failFill_alone (s := counted s) (i := i) filling rfl queue waiting service
    have timeout := (fetchTimerOut_requested fill requested).trans (alone _)
    have absent := (takeAbsent_requested (s := counted s) fill requested).trans (alone' _)
    have defer := fun fifth code => (takeDefer_fifth (s := counted s) fill requested fifth code).trans (alone' _)
    exact ⟨(exec_fetchTimeout listening.1 i).trans (congrArg Host.Outcome.next timeout),
      (exec_absent listening _).trans (congrArg Host.Outcome.next absent),
      fun fifth code => (exec_defer listening _ code).trans (congrArg Host.Outcome.next (defer fifth code))⟩
  · have failed := fillFailed (s := s) filling fill once .uplinkTimeout
    have failed' := fillFailed (s := counted s) filling fill once
    have absent := takeAbsent_requested (s := counted s) fill requested
    have defer := takeDefer_fifth (s := counted s) fill requested
    rw [← fetchTimerOut_requested fill requested] at failed
    exact ⟨⟨_, exec_fetchTimeout listening.1 i, failed⟩,
      ⟨_, (exec_absent listening _).trans (congrArg Host.Outcome.next absent), failed' f.kind.unknownCode⟩,
      fun fifth code => ⟨_, (exec_defer listening _ code).trans (congrArg Host.Outcome.next (defer fifth code)), failed' _⟩⟩
  · have late : ∀ i f, liveSlot tag (counted s) = some (i, f) → f.phase ≠ .requested := fun i f live => by
      obtain ⟨slot, gen⟩ := liveSlot_names live
      have fill := liveSlot_fill live
      rcases dead i slot with idle | other | ⟨g, is, delayed⟩
      · cases fill.symm.trans idle
      · exact absurd gen other
      · obtain rfl : f = g := Option.some.inj (fill.symm.trans is)
        exact delayed
    rw [exec_absent listening, exec_defer listening, takeAbsent_late late, takeDefer_late late]
    exact ⟨rfl, rfl⟩

end Sys2Proof.RecordCache

namespace Sys2Proof.RecordCache

open Sys2Proof Sys2Proof.Machine Sys2Proof.Safety Sys2Proof.KioskLanes Sys2Proof.Transactions

/-! ## The FETCH of a slot (R86, R90, R91, R100) -/

/-- A FETCH that falls due asks at the slot's generation (R86). -/
theorem fetchDue_eq_asking {i : SlotId} {f : Fill} {s : State} (fill : (s.slot i).fill = some f) (first count : Nat) :
    fetchDue i first count s = asking i (s.slot i).gen f first count s := by
  unfold asking; split
  · next busy => simp only [fetchDue, fill, busy, if_true]
  · next clear => exact BranchLink.fetchDue_clear fill (Bool.eq_false_iff.mpr clear)

/-- A FETCH that falls due as a slot's fill is replaced asks for the new fill (R86). -/
theorem fetchDue_setSlot {i : SlotId} {x : FillSlot} {f : Fill} {s : State} (fill : x.fill = some f)
    (mark : x.onLine = (s.slot i).onLine) (first count : Nat) :
    fetchDue i first count (s.setSlot i x) = asking i x.gen f first count s := by
  have slot : (s.setSlot i x).slot i = x := State.slot_setSlot s i x
  rw [fetchDue_eq_asking ((congrArg FillSlot.fill slot).trans fill), slot, asking_setSlot i _ _ _ _ s x mark]

/-- A fill that starts again asks for the whole record at the slot's next generation (R90, R100). -/
theorem restartFill_eq_asking (i : SlotId) (f : Fill) (s : State) :
    restartFill i f s = asking i ((s.slot i).gen + 1) (restarted f) 0 f.kind.segments s :=
  fetchDue_setSlot (x := ⟨(s.slot i).gen + 1, some (restarted f), (s.slot i).onLine⟩) rfl rfl 0 f.kind.segments

/-- A burst that ends asks for the missing segments of the fill the slot then holds (R91). -/
theorem endBurst_setFill (i : SlotId) (f : Fill) (s : State) :
    endBurst i f (setFill i f s) = asking i (s.slot i).gen f f.firstMissing f.missing s :=
  fetchDue_setSlot (x := { s.slot i with fill := some f }) rfl rfl f.firstMissing f.missing

/-! ## The segments a fill holds (R89, R91) -/

section
variable {received : List (Option (List Octet))}

/-- The lowest missing index is the one below which all are held. -/
theorem findIdx_missing {j : Nat} (small : j < received.length) (missing : received.getD j none = none)
    (lower : ∀ j', j' < j → received.getD j' none ≠ none) : received.findIdx Option.isNone = j := by
  rw [List.getD_eq_getElem _ _ small] at missing
  refine (List.findIdx_eq small).mpr ⟨by rw [missing]; rfl, fun j' lt => ?_⟩
  have held := lower j' lt
  rw [List.getD_eq_getElem _ _ (lt.trans small)] at held
  exact Option.isNone_eq_false_iff.mpr (Option.isSome_iff_ne_none.mpr held)

theorem not_full_of_missing {j : Nat} (small : j < received.length) (missing : received.getD j none = none) :
    received.all Option.isSome = false := by
  rw [List.getD_eq_getElem _ _ small] at missing
  exact List.all_eq_false.mpr ⟨received[j], List.getElem_mem small, by rw [missing]; decide⟩

variable {index : Nat} (data : List Octet)

theorem getD_set_ne {j : Nat} (other : j ≠ index) :
    (received.set index (some data)).getD j none = received.getD j none := by
  rw [List.getD_eq_getElem?_getD, List.getElem?_set_ne other.symm, List.getD_eq_getElem?_getD]

theorem getD_set_self (inside : index < received.length) :
    (received.set index (some data)).getD index none = some data := by
  rw [List.getD_eq_getElem _ _ (by rwa [List.length_set]), List.getElem_set_self]

/-- A segment newly held is one missing less. -/
theorem countP_set_missing (inside : index < received.length) (new : received.getD index none = none) :
    (received.set index (some data)).countP Option.isNone = received.countP Option.isNone - 1 := by
  rw [List.getD_eq_getElem _ _ inside] at new
  rw [List.countP_set inside, new]; rfl

end

/-! ## SEGMENT by the tests of R88 -/

section
variable {tag : Tag} {kind : Octet} {key : Key} {version : Version} {index flags : Octet} {data : List Octet} {s : State}

/-- What tests 1 to 4 find late: the tag is live for no slot, or the slot's fill is not the SEGMENT's (R88). -/
theorem takeSegment_late (late : ∀ i f, liveSlot tag s = some (i, f) →
      f.phase ≠ .requested ∨ f.kind.code ≠ kind ∨ f.key ≠ key ∨ f.kind.segments ≤ index.toNat) :
    takeSegment tag kind key version index flags data s = s.countLink .lateTags := by
  unfold takeSegment; split
  · rfl
  · next i f live => exact if_pos (late i f live)

/-- The first SEGMENT of a fill, or one of the version the fill has, brings no other version (R90). -/
theorem not_another {f : Fill} (same : f.version = none ∨ f.version = some version) :
    ¬ f.version.any (· ≠ version) = true := by
  rcases same with fresh | again
  · rw [fresh]; exact Bool.false_ne_true
  · simp [again]

variable {i : SlotId} {f : Fill} (live : liveSlot tag s = some (i, f)) (requested : f.phase = .requested)
  (code : f.kind.code = kind) (named : f.key = key) (inside : index.toNat < f.kind.segments)
include live requested code named inside

/-- A SEGMENT that passes tests 1 to 4 is taken by its version and by what is held (R88). -/
theorem takeSegment_tested : takeSegment tag kind key version index flags data s =
    if f.version.any (· ≠ version) then restartFill i f s
    else if (f.received.getD index.toNat none).isSome then
      if endFlag flags then endBurst i f (s.countLink .lateTags) else s.countLink .lateTags
    else
      let f' := { f with received := f.received.set index.toNat (some data), version := some version }
      if f'.full then settle (completeFill i f' version (keepFlag flags) (setFill i f' s))
      else if endFlag flags then endBurst i f' (setFill i f' s)
      else setFill i f' s := by
  have tests : ¬ (f.phase ≠ .requested ∨ f.kind.code ≠ kind ∨ f.key ≠ key ∨ f.kind.segments ≤ index.toNat) := by
    rintro (other | other | other | beyond)
    · exact other requested
    · exact other code
    · exact other named
    · exact absurd inside (Nat.not_lt.mpr beyond)
  simp only [takeSegment, live, if_neg tests]

/-- Another version starts the fill again (R90). -/
theorem takeSegment_restarts {v : Version} (is : f.version = some v) (other : v ≠ version) :
    takeSegment tag kind key version index flags data s =
      asking i ((s.slot i).gen + 1) (restarted f) 0 f.kind.segments s := by
  rw [takeSegment_tested live requested code named inside, is, if_pos (by simpa using other), restartFill_eq_asking]

variable (same : f.version = none ∨ f.version = some version)
include same

/-- A segment that is held already is counted late, and at END asks for what is missing (R88, R91). -/
theorem takeSegment_duplicate (held : f.received.getD index.toNat none ≠ none) :
    takeSegment tag kind key version index flags data s =
      if flags.getLsbD 1 then asking i (s.slot i).gen f f.firstMissing f.missing (s.countLink .lateTags)
      else s.countLink .lateTags := by
  rw [takeSegment_tested live requested code named inside, if_neg (not_another same),
    if_pos (Option.isSome_iff_ne_none.mpr held), endBurst,
    fetchDue_eq_asking (s := s.countLink .lateTags) (liveSlot_fill live)]
  rfl

/-- A segment that leaves others missing is held, and at END asks for them (R89, R91). -/
theorem takeSegment_held (new : f.received.getD index.toNat none = none) {j : Nat} (small : j < f.received.length)
    (other : j ≠ index.toNat) (missing : f.received.getD j none = none) :
    let f' := { f with received := f.received.set index.toNat (some data), version := some version }
    takeSegment tag kind key version index flags data s =
      if flags.getLsbD 1 then asking i (s.slot i).gen f' f'.firstMissing f'.missing s else withFill s i f' := by
  intro f'
  have partly : f'.full = false :=
    not_full_of_missing (by rwa [List.length_set]) ((getD_set_ne data other).trans missing)
  rw [takeSegment_tested live requested code named inside, if_neg (not_another same),
    if_neg (by rw [new]; exact Bool.false_ne_true)]
  dsimp only
  rw [partly, if_neg Bool.false_ne_true, endBurst_setFill]
  rfl

end

/-- Settles O29: tests 1 to 4 first, then the version, then whether the segment is held already; what an END asks for is
read off the segments held. -/
theorem segmentsAreTested : Obligations.SegmentsAreTested := by
  intro s tag kind key version index flags data listening size
  rw [exec_segment listening tag kind key version index flags size]
  refine ⟨fun dead => congrArg Host.Outcome.next (takeSegment_late fun i f live => ?_),
    fun i f slot gen fill requested code named inside length => ?_⟩
  · obtain ⟨slot, gen⟩ := liveSlot_names live
    rcases dead i slot with idle | other | ⟨g, is, fails⟩
    · cases (liveSlot_fill live).symm.trans idle
    · exact absurd gen other
    · obtain rfl : f = g := Option.some.inj ((liveSlot_fill live).symm.trans is)
      exact fails
  have live : liveSlot tag (counted s) = some (i, f) := liveSlot_some slot gen fill
  intro gen held f'
  refine ⟨fun v is other => congrArg _ (takeSegment_restarts live requested code named inside is other), fun same => ?_⟩
  have duplicate := takeSegment_duplicate (flags := flags) (data := data) live requested code named inside same
  have accepted := fun new {j} => takeSegment_held (flags := flags) (data := data) (j := j) live requested code named
    inside same new
  simp only [held, ne_eq, not_not] at duplicate accepted ⊢
  refine ⟨fun twice off => ?_, fun twice last j small missing lower => ?_, fun new ⟨j, small, other, missing⟩ off => ?_,
    fun new last j small other missing lower => ?_⟩
  · rw [duplicate twice, off]; rfl
  · rw [duplicate twice, last, Fill.firstMissing, findIdx_missing (length ▸ small) missing lower]; rfl
  · rw [accepted new (length ▸ small) other missing, off]; rfl
  · have first : f'.firstMissing = j := by
      refine findIdx_missing (by rw [List.length_set, length]; exact small) ((getD_set_ne data other).trans missing)
        fun j' lt => ?_
      by_cases own : j' = index.toNat
      · rw [own, getD_set_self data (length ▸ inside)]; exact Option.some_ne_none data
      · rw [getD_set_ne data own]; exact (lower j' lt).resolve_left own
    have fewer : f'.missing = f.received.countP Option.isNone - 1 := countP_set_missing data (length ▸ inside) new
    rw [accepted new (length ▸ small) other missing, last, first, fewer]; rfl

/-! ## DEFER and the end of its delay (R99, R100) -/

theorem deferDelay_eq (code : Octet) :
    deferDelay code = 10 * (if code = 0 then 1 else if 15 < code.toNat then 15 else code.toNat) := by
  have zero : code = 0 ↔ code.toNat = 0 := BitVec.toNat_inj.symm
  unfold deferDelay
  simp only [zero]
  repeat' split
  all_goals omega

theorem exec_deferDelayEnd {s : State} (h : s.powered = true) (i : SlotId) :
    exec (.deferDelayEnd i) s = .next (endDelay i s) := congrArg Host.Outcome.next (live_powered h _)

section
variable {s : State} {i : SlotId} {f : Fill} (fill : (s.slot i).fill = some f)
include fill

theorem takeDefer_delays (requested : f.phase = .requested) (below : f.defers < 4) (code : Octet) :
    takeDefer (tagOf i (s.slot i).gen) code s = withFill s i { f with
      phase := .deferred (deferDelay code), received := List.replicate f.kind.segments none
      version := none, defers := f.defers + 1, owed := none } := by
  simp only [takeDefer, liveSlot_tagOf fill, requested, not_true_eq_false, ne_eq, if_false, if_neg (Nat.not_le.mpr below)]
  rfl

theorem endDelay_deferred {ms : Nat} (deferred : f.phase = .deferred ms) :
    endDelay i s = asking i ((s.slot i).gen + 1) (restarted f) 0 f.kind.segments s := by
  rw [← restartFill_eq_asking]; simp only [endDelay, fill, deferred]

theorem endDelay_requested (requested : f.phase = .requested) : endDelay i s = s := by
  simp only [endDelay, fill, requested]

end

/-- Settles O32: a DEFER below the fifth starts the delay of its code, whose end asks for the whole record again. -/
theorem deferDelaysThenRefetches : Obligations.DeferDelaysThenRefetches := by
  refine fun s i f fill => ⟨fun listening requested below code => ?_, fun ms powered deferred => ?_, fun requested => ?_⟩
  · rw [exec_defer listening, ← deferDelay_eq]
    exact congrArg Host.Outcome.next (takeDefer_delays (s := counted s) fill requested below code)
  · rw [exec_deferDelayEnd powered, endDelay_deferred fill deferred]
    exact ⟨fun clear => congrArg _ (if_neg (Bool.eq_false_iff.mp clear)), fun busy => congrArg _ (if_pos busy)⟩
  · have stays := endDelay_requested fill requested
    refine congrArg Host.Outcome.next ?_
    unfold live; rw [stays, ite_self]

end Sys2Proof.RecordCache

namespace Sys2Proof.Commits

open Sys2Proof Sys2Proof.Machine Sys2Proof.Safety Sys2Proof.KioskLanes Sys2Proof.Transactions

/-! ## RESULT by the tests of R111 -/

theorem exec_result {s : State} (h : Listening s) (tag : Tag) (attempt outcome : Octet) {versions : List Version}
    (size : versions.length ≤ 3) :
    exec (.result tag attempt outcome versions) s = .next (takeResult tag attempt outcome versions (counted s)) := by
  refine congrArg Host.Outcome.next ?_
  have length : (attempt :: outcome :: versions.flatMap fun v => beOctets 4 v.toNat).length =
      4 * versions.length + 2 := by
    simp only [List.length_cons, versions_length]
  rw [live_powered h.1]
  refine arrive_listening _ _ s h rfl (by rw [length]; omega) ?_
  rw [length]
  interval_cases versions.length <;> rfl

section
variable {slot : Nat} (within : slot < 16) (gen : Gen)
include within

theorem toNat_tagOf : (tagOf slot gen).toNat = slot * 4096 + gen.toNat := by
  have small := gen.isLt
  rw [tagOf, BitVec.toNat_ofNat, Nat.mod_eq_of_lt (by omega)]

theorem tagSlot_tagOf : tagSlot (tagOf slot gen) = slot := by
  have small := gen.isLt
  rw [tagSlot, toNat_tagOf within]; omega

theorem tagGen_tagOf : tagGen (tagOf slot gen) = gen := by
  have small := gen.isLt
  have low : (slot * 4096 + gen.toNat) % 4096 = gen.toNat := by omega
  rw [tagGen, toNat_tagOf within, low, BitVec.ofNat_toNat, BitVec.setWidth_eq]

end

/-- Only the octets 1, 2 and 3 name an outcome (R111 test 3). -/
theorem ofCode_names {outcome : Octet} {r : Outcome} (h : Outcome.ofCode outcome = some r) :
    0 < outcome.toNat ∧ outcome.toNat < 4 := by
  unfold Outcome.ofCode at h
  split at h
  · next one => rw [one]; decide
  split at h
  · next two => rw [two]; decide
  split at h
  · next three => rw [three]; decide
  · cases h

/-- A RESULT that is for an UPDATE has passed every test of R111. -/
theorem resultFor_passes {tag : Tag} {attempt outcome : Octet} {versions : List Version} {s : State} {c : CtxId}
    {o : Outstanding} {r : Outcome} (h : resultFor tag attempt outcome versions s = some (c, o, r)) :
    tag.toNat / 4096 = c.val ∧ ∃ x, s.txn c = some x ∧ x.state = .commit ∧ (s.ctx c).gen.toNat = tag.toNat % 4096 ∧
      x.outstanding = some o ∧ attempt.toNat = o.attempt ∧ Outcome.ofCode outcome = some r ∧
      versions.length = o.entries.length := by
  unfold resultFor at h
  split at h
  case isFalse => cases h
  dsimp only at h
  split at h
  case h_2 => cases h
  next x busy =>
  split at h
  case isFalse => cases h
  next live =>
  split at h
  case h_2 => cases h
  next update named =>
  split at h
  case isFalse => cases h
  next same =>
  cases h
  exact ⟨rfl, x, busy, live.1, by rw [live.2, tagGen, BitVec.toNat_ofNat, Nat.mod_mod], update, same.1, named, same.2⟩

/-- A RESULT that passes the tests of R111 is for the UPDATE it names. -/
theorem resultFor_tagOf {s : State} {c : CtxId} {x : Txn} {o : Outstanding} {r : Outcome} {attempt outcome : Octet}
    {versions : List Version} (busy : s.txn c = some x) (commit : x.state = .commit) (update : x.outstanding = some o)
    (same : attempt.toNat = o.attempt) (named : Outcome.ofCode outcome = some r)
    (each : versions.length = o.entries.length) :
    resultFor (tagOf c (s.ctx c).gen) attempt outcome versions s = some (c, o, r) := by
  simp only [resultFor, tagSlot_tagOf c.isLt, tagGen_tagOf c.isLt, c.isLt, dif_pos, Fin.eta, busy, commit,
    and_self, if_true, update, named, same, each]

section
variable {tag : Tag} {attempt outcome : Octet} {versions : List Version} {s : State} {c : CtxId} {o : Outstanding}

theorem takeResult_late (late : resultFor tag attempt outcome versions s = none) :
    takeResult tag attempt outcome versions s = s.countLink .lateTags := by
  simp only [takeResult, late]

theorem takeResult_applied (h : resultFor tag attempt outcome versions s = some (c, o, .applied)) :
    takeResult tag attempt outcome versions s =
      settle (endCtx c o.success o.fields (applyEntries c (o.entries.zip versions) (takeOutcome c s))) := by
  simp only [takeResult, h]

theorem takeResult_stale (h : resultFor tag attempt outcome versions s = some (c, o, .stale)) :
    takeResult tag attempt outcome versions s =
      settle (regather c (staleEntries c (o.entries.zip versions) (takeOutcome c s))) := by
  simp only [takeResult, h]

theorem takeResult_refused (h : resultFor tag attempt outcome versions s = some (c, o, .refused)) :
    takeResult tag attempt outcome versions s = settle (endCtx c .commitRefused [] (takeOutcome c s)) := by
  simp only [takeResult, h]

end

/-! ## The outcome taken, its entries written or marked (R109, R111-R113) -/

theorem mapHeldCopy_cache (c : CtxId) (k : RecordKind) (n : Nat) (f : Copy → Copy) (s : State) :
    ∃ r, mapHeldCopy c k n f s = { s with rc := r } := by
  rcases RecordCache.mapHeldCopy_cases c k n f s with same | ⟨e, is⟩
  · exact ⟨s.rc, same⟩
  · exact ⟨_, is⟩

theorem applyEntry_cache (c : CtxId) (e : UpdateEntry) (v : Version) (s : State) :
    ∃ r, applyEntry c e v s = { s with rc := r } := by
  unfold applyEntry; repeat' split
  · exact ⟨s.rc, rfl⟩
  · next image _ _ =>
    obtain ⟨r, written⟩ := mapHeldCopy_cache c e.kind e.entry (·.writeThrough image v) s
    rw [written]; exact ⟨_, rfl⟩
  · exact ⟨s.rc, rfl⟩

/-- What an APPLIED result writes is in the cache alone. -/
theorem applyEntries_cache (c : CtxId) (es : List (UpdateEntry × Version)) (s : State) :
    ∃ r, applyEntries c es s = { s with rc := r } := by
  induction es generalizing s with
  | nil => exact ⟨s.rc, rfl⟩
  | cons e es ih =>
    obtain ⟨r, first⟩ := applyEntry_cache c e.1 e.2 s
    obtain ⟨r', rest⟩ := ih { s with rc := r }
    exact ⟨r', by rw [applyEntries, first, rest]⟩

/-- What a STALE result marks is in the cache alone. -/
theorem staleEntries_cache (c : CtxId) (es : List (UpdateEntry × Version)) (s : State) :
    ∃ r, staleEntries c es s = { s with rc := r } := by
  induction es generalizing s with
  | nil => exact ⟨s.rc, rfl⟩
  | cons e es ih =>
    obtain ⟨r, first⟩ := mapHeldCopy_cache c e.1.kind e.1.entry (·.notice e.2) s
    obtain ⟨r', rest⟩ := ih { s with rc := r }
    exact ⟨r', by rw [staleEntries, first, rest]⟩

/-- The outcome has been taken, and beyond that nothing but the cache differs. -/
def Taken (c : CtxId) (s u : State) : Prop := ∃ r, u = { takeOutcome c s with rc := r }

section
variable {c : CtxId} {x : Txn} {s u : State} (taken : Taken c s u)
include taken

theorem still_taken : Still (stopped c s) u := by
  obtain ⟨r, rfl⟩ := taken
  obtain ⟨lanes, counters, cu, link, gen⟩ :=
    still_setTxn (stopped c s) c (((stopped c s).txn c).map fun x => { x with outstanding := none })
  exact ⟨lanes, counters, cu, link, gen⟩

theorem steady_taken : u.steady = s.steady := by
  obtain ⟨r, rfl⟩ := taken
  exact steady_of_outside rfl

theorem txn_taken (h : s.txn c = some x) : u.txn c = some { x with outstanding := none } := by
  obtain ⟨r, rfl⟩ := taken
  have own : (takeOutcome c s).txn c = some { x with outstanding := none } := by
    rw [takeOutcome, State.txn_mapTxn, State.setCommitRec_txn, h]; rfl
  exact own

theorem cardOf_taken_ne {d : CtxId} (other : d ≠ c) : cardOf u d = cardOf s d := by
  obtain ⟨r, rfl⟩ := taken
  have same : (takeOutcome c s).txn d = s.txn d := by
    rw [takeOutcome, State.txn_mapTxn_ne _ _ other.symm, State.setCommitRec_txn]
  exact congrArg (Option.map card) same

/-- From there an end is the end of the context as it was in COMMIT, its commit timer stopped (R56, R58). -/
theorem ended_taken {code : ResultCode} {fields : List Octet} {t : State}
    (h : Ended c { x with outstanding := none } code fields u t) : Ended c x code fields (stopped c s) t :=
  ended_of_still h rfl rfl rfl (still_taken taken) (fun _ other => cardOf_taken_ne taken other)
    ((steady_taken taken).trans (steady_of_outside rfl).symm)

theorem ended_taken_endCtx (h : s.txn c = some x) (code : ResultCode) (fields : List Octet) :
    Ended c x code fields (stopped c s) (settle (endCtx c code fields u)) :=
  ended_taken taken (ended_endCtx (txn_taken taken h) code fields)

end

/-! ## The regather of a STALE result (R53, R113) -/

/-- Whatever a regather cause comes to, the commit records and the link's counters stay. -/
theorem regather_cu_link {c : CtxId} {x : Txn} {s : State} (h : s.txn c = some x) :
    (regather c s).1.cu = s.cu ∧ (regather c s).1.bli.counters = s.bli.counters := by
  have still (new : Option Txn) := still_releaseAll (c := c) (x := x) (s := s) new
  cases kept : x.abandoned with
  | true => rw [regather_abandoned h kept]; exact ⟨(still none).cu, (still none).link⟩
  | false =>
  by_cases limit : 2 ≤ x.regathers
  · have ended := regather_limit_outcome h (.refl _) rfl kept limit
    exact ⟨ended.commits, ended.apart.link⟩
  have below := Nat.not_le.mp limit
  cases deadline : x.deadline with
  | running => rw [regather_running h kept below deadline]; exact ⟨(still _).cu, (still _).link⟩
  | passed =>
    have ended := regather_passed_outcome h (.refl _) rfl kept below deadline
    exact ⟨ended.commits, ended.apart.link⟩

/-- The context regathers as it stood in COMMIT, its UPDATE let go of (R53, R56, R113). -/
theorem regathered_taken {c : CtxId} {x : Txn} {s u : State} (taken : Taken c s u) (h : s.txn c = some x) :
    let t := settle (regather c u)
    t.cu = (stopped c s).cu ∧ Apart s t ∧ (∀ d, d ≠ c → cardOf t d = cardOf s d) ∧
      (x.abandoned = true → t.txn c = none ∧ t.lanes = s.lanes ∧ t.dct.counters = s.dct.counters) ∧
      (x.abandoned = false → 2 ≤ x.regathers → Ended c x .retryLater [] (stopped c s) t) ∧
      (x.abandoned = false → x.regathers < 2 → x.deadline = .running →
        cardOf t c = some { card x with regathers := x.regathers + 1, outstanding := none, committing := false } ∧
        t.lanes = s.lanes ∧ t.dct.counters = s.dct.counters.advance .regathers) := by
  intro t
  have busy := txn_taken taken h
  have still := still_taken taken
  have follows : Hushed (regather c u).1 t := hushed_settle _ (quiet_regather c u)
  have steady : t.steady = (regather c u).1.steady := steady_settle _
  obtain ⟨cu, link⟩ := regather_cu_link busy
  refine ⟨(follows.cu.trans cu).trans still.cu, ?_, fun d other => ?_, fun gone => ?_, fun kept limit => ?_,
    fun kept below running => ?_⟩
  · have unmoved : t.steady = s.steady :=
      steady.trans ((steady_of_outside (outside_regather c u)).trans (steady_taken taken))
    exact apart_of_steady unmoved ((follows.link.trans link).trans still.link)
  · exact (regather_others busy follows other).trans (cardOf_taken_ne taken other)
  · obtain ⟨free, counters, lanes⟩ := regather_abandoned_outcome busy follows gone
    exact ⟨free, lanes.trans still.lanes, counters.trans still.counters⟩
  · exact ended_taken taken (regather_limit_outcome busy follows steady kept limit)
  · obtain ⟨own, counters, lanes, -⟩ := regather_running_outcome busy follows kept below running
    exact ⟨own, lanes.trans still.lanes, counters.trans (congrArg (·.advance .regathers) still.counters)⟩

/-- Settles O34: a RESULT that fails a test of R111 is for no UPDATE; one that passes takes the outcome, and its context
ends or regathers from what the outcome leaves. -/
theorem resultsAreTested : Obligations.ResultsAreTested := by
  refine ⟨fun s tag attempt outcome versions listening size fails => ?_,
    fun s c x o attempt versions listening size busy commit update same each => ?_⟩
  · have late : resultFor tag attempt outcome versions (counted s) = none :=
      Option.eq_none_iff_forall_ne_some.mpr fun (c, o, r) is => by
        obtain ⟨slot, x, busy, commit, gen, update, same, named, each⟩ := resultFor_passes is
        obtain ⟨low, high⟩ := ofCode_names named
        rcases fails c x o slot busy update with state | other | attempts | zero | four | lengths
        · exact state commit
        · exact other gen
        · exact attempts same
        · omega
        · omega
        · exact lengths each
    rw [exec_result listening tag attempt outcome size, takeResult_late late]; rfl
  · have passes {outcome : Octet} {r : Outcome} (named : Outcome.ofCode outcome = some r) :=
      resultFor_tagOf (s := counted s) busy commit update same named each
    have refused := takeResult_refused (passes (outcome := 3) rfl)
    have applied := takeResult_applied (passes (outcome := 1) rfl)
    have stale := takeResult_stale (passes (outcome := 2) rfl)
    have exec (outcome : Octet) := exec_result listening (tagOf c (s.ctx c).gen) attempt outcome size
    refine ⟨⟨_, exec 3, refused, ?_⟩, ⟨_, exec 1, applied, ?_⟩, ⟨_, exec 2, stale, ?_⟩⟩
    · exact refused ▸ ended_taken_endCtx (s := counted s) ⟨_, rfl⟩ busy .commitRefused []
    · exact applied ▸ ended_taken_endCtx (s := counted s) (applyEntries_cache c _ _) busy o.success o.fields
    · exact stale ▸ regathered_taken (s := counted s) (staleEntries_cache c _ _) busy

end Sys2Proof.Commits

namespace Sys2Proof.Decisions

open Sys2Proof Sys2Proof.Machine

/-! ## Rule reads (R121, R122, R139, R181) -/

/-- A block that is not VALID serves no read (R139, R181). -/
theorem readRule_waits {r : RuleStore} {block : BlockId} (h : (r.block block).content ≠ .valid) (index : Nat) :
    readRule r block index = .error (.wait block) := if_neg h

theorem readRule_served {r : RuleStore} {block : BlockId} (h : (r.block block).content = .valid) {index : Nat}
    {entry : Option RuleEntry} (is : (r.block block).entries.getD index none = entry) :
    readRule r block index = .ok entry := (if_pos h).trans (congrArg _ is)

section
variable {r : RuleStore} {pc ic : Nat}

theorem readClass_above (h : 15 < pc) : readClass r pc = .ok none := if_pos h

theorem readLoanRule_above (h : 15 < pc ∨ 15 < ic) : readLoanRule r pc ic = .ok none := if_pos h

/-- The PC block serves the class entry of a patron class, or none (R121). -/
theorem readClass_read (h : pc ≤ 15) :
    (∀ e, readRule r 12 pc = .error e → readClass r pc = .error e) ∧
    (readRule r 12 pc = .ok none → readClass r pc = .ok none) ∧
    ∀ p, readRule r 12 pc = .ok (some (.patronClass p)) → readClass r pc = .ok (some p) := by
  rw [readClass, if_neg (Nat.not_lt.mpr h), pcBlock]
  refine ⟨fun e read => ?_, fun read => ?_, fun p read => ?_⟩ <;> rw [read] <;> rfl

/-- The LR block of the patron class serves the entry of a pairing, or none (R121). -/
theorem readLoanRule_read (h : pc ≤ 15) (h' : ic ≤ 15) {lr : BlockId} (is : lr.val = pc / 4) :
    let read := readRule r lr (pc % 4 * 16 + ic)
    (∀ e, read = .error e → readLoanRule r pc ic = .error e) ∧
    (read = .ok none → readLoanRule r pc ic = .ok none) ∧
    ∀ l, read = .ok (some (.loanRule l)) → readLoanRule r pc ic = .ok (some l) := by
  have own : lrBlock pc = lr := Fin.ext (by simp only [lrBlock]; omega)
  rw [readLoanRule, if_neg (by omega), own]
  refine ⟨fun e read => ?_, fun read => ?_, fun l read => ?_⟩ <;> rw [read] <;> rfl

/-- The PC block serves the window base, or none (R121). -/
theorem readBase_read :
    (∀ e, readRule r 12 16 = .error e → readBase r = .error e) ∧
    (readRule r 12 16 = .ok none → readBase r = .ok none) ∧
    ∀ w, readRule r 12 16 = .ok (some (.windowBase w)) → readBase r = .ok (some w) := by
  rw [readBase, pcBlock]
  refine ⟨fun e read => ?_, fun read => ?_, fun w read => ?_⟩ <;> rw [read] <;> rfl

end

section
variable {r : RuleStore} {b w d : Nat}

/-- A branch above 63, and a day outside the window, is open and reads no block (R122). -/
theorem dayClosed_open (h : 63 < b ∨ d < w ∨ w + 511 < d) : dayClosed r b (some w) d = .ok false := if_pos h

/-- The CAL block of the branch serves the calendar entry of a day inside the window, or none (R122). -/
theorem dayClosed_read (h : b ≤ 63) (low : w ≤ d) (high : d ≤ w + 511) {block : BlockId}
    (is : block.val = 4 + b / 8) :
    let read := readRule r block (b % 8 * 8 + (d - w) / 64)
    (∀ e, read = .error e → dayClosed r b (some w) d = .error e) ∧
    (read = .ok none → dayClosed r b (some w) d = .ok false) ∧
    ∀ marks, read = .ok (some (.calendar marks)) →
      dayClosed r b (some w) d = .ok (marks.getLsbD ((d - w) % 64)) := by
  have own : calBlock b = block := Fin.ext (by simp only [calBlock]; omega)
  simp only [dayClosed]
  rw [if_neg (by omega), own]
  refine ⟨fun e read => ?_, fun read => ?_, fun marks read => ?_⟩ <;> rw [read] <;> rfl

end

/-- Settles O41: each rule read names its block and entry, and answers by what `readRule` serves there. -/
theorem calendarDays : Obligations.CalendarDays := by
  refine ⟨fun r pc ic lr => ⟨fun above => ⟨readClass_above above, readLoanRule_above (.inl above)⟩,
    fun above => readLoanRule_above (.inr above), fun shut => ?pcShut, fun valid => ?pcValid,
    fun class_le item_le own => ?loan⟩, fun r b w d => ⟨rfl, fun above => dayClosed_open (.inl above),
    fun outside => dayClosed_open (.inr outside), fun block branch low high own => ?day⟩⟩
  case pcShut =>
    exact ⟨readBase_read.1 _ (readRule_waits shut 16), fun small => (readClass_read small).1 _ (readRule_waits shut pc)⟩
  case pcValid =>
    obtain ⟨-, baseBlank, baseWritten⟩ := readBase_read (r := r)
    refine ⟨fun blank => baseBlank (readRule_served valid blank),
      fun w written => baseWritten w (readRule_served valid written), fun small => ?_⟩
    obtain ⟨-, classBlank, classWritten⟩ := readClass_read (r := r) small
    exact ⟨fun blank => classBlank (readRule_served valid blank),
      fun p written => classWritten p (readRule_served valid written)⟩
  case loan =>
    obtain ⟨waits, loanBlank, loanWritten⟩ := readLoanRule_read (r := r) class_le item_le own
    exact ⟨fun shut => waits _ (readRule_waits shut _), fun valid =>
      ⟨fun blank => loanBlank (readRule_served valid blank),
       fun l written => loanWritten l (readRule_served valid written)⟩⟩
  case day =>
    obtain ⟨waits, dayBlank, dayWritten⟩ := dayClosed_read (r := r) branch low high own
    exact ⟨fun shut => waits _ (readRule_waits shut _), fun valid =>
      ⟨fun blank => dayBlank (readRule_served valid blank),
       fun marks written => dayWritten marks (readRule_served valid written)⟩⟩

/-! ## The chargeable days (R125) -/

section
variable {r : RuleStore} {b : Nat} {base : Option Nat}

/-- A branch above 63, and a day outside the window if there is one, is open (R122). -/
theorem dayClosed_unread {d : Nat} (h : 63 < b ∨ ∀ w, base = some w → d < w ∨ w + 511 < d) :
    dayClosed r b base d = .ok false := by
  cases base with
  | none => rfl
  | some w => exact dayClosed_open (h.imp_right fun outside => outside w rfl)

/-- A day that is read adds to the chargeable days behind it if it is open. -/
theorem chargeableDays_first {d : Nat} {closed : Bool} (first : dayClosed r b base d = .ok closed) (n : Nat) :
    chargeableDays r b base d (n + 1) =
      (chargeableDays r b base (d + 1) n).map (· + if closed then 0 else 1) := by
  rw [chargeableDays, first]; rfl

theorem chargeableDays_stop {d : Nat} {e : Stop} (first : dayClosed r b base d = .error e) (n : Nat) :
    chargeableDays r b base d (n + 1) = .error e := by
  rw [chargeableDays, first]; rfl

/-- Where every day is read, the open ones count. -/
theorem chargeableDays_counts {d n : Nat} (isClosed : Nat → Bool)
    (read : ∀ j, j < n → dayClosed r b base (d + j) = .ok (isClosed j)) :
    chargeableDays r b base d n = .ok ((List.range n).filter fun j => !isClosed j).length := by
  rw [← List.countP_eq_length_filter]
  induction n generalizing d isClosed with
  | zero => rfl
  | succ n ih =>
    have rest := ih (d := d + 1) (fun j => isClosed (j + 1)) fun j h => by
      rw [Nat.add_right_comm]; exact read (j + 1) (Nat.succ_lt_succ h)
    rw [chargeableDays_first (d := d) (read 0 n.succ_pos), rest, List.range_succ_eq_map, List.countP_cons,
      List.countP_map]
    cases isClosed 0 <;> rfl

/-- The days are read in their order, and the first that is not served stops the count (R138, R139). -/
theorem chargeableDays_waits {d n j : Nat} {e : Stop} (h : j < n)
    (before : ∀ i, i < j → ∃ y, dayClosed r b base (d + i) = .ok y) (stops : dayClosed r b base (d + j) = .error e) :
    chargeableDays r b base d n = .error e := by
  induction n generalizing d j with
  | zero => exact absurd h (Nat.not_lt_zero j)
  | succ n ih =>
    cases j with
    | zero => exact chargeableDays_stop stops n
    | succ j =>
      obtain ⟨closed, first⟩ := before 0 j.succ_pos
      have rest : chargeableDays r b base (d + 1) n = .error e :=
        ih (Nat.lt_of_succ_lt_succ h)
          (fun i lt => by rw [Nat.add_right_comm]; exact before (i + 1) (Nat.succ_lt_succ lt))
          (by rw [Nat.add_right_comm]; exact stops)
      rw [chargeableDays_first (d := d) first, rest]; rfl

end

/-! ## The fine (R124-R127) -/

section
variable {r : RuleStore} {b : Nat} {rule : LoanRule} {discount due today : Nat} (late : rule.grace < today - due)
include late

theorem fineOf_stop {e : Stop} (read : readBase r = .error e) : fineOf r b rule discount due today = .error e := by
  rw [fineOf, if_neg (Nat.not_le.mpr late), read]; rfl

theorem fineOf_charged {base : Option Nat} (read : readBase r = .ok base) : fineOf r b rule discount due today =
    (chargeableDays r b base (due + 1) (today - due)).map (fineOfDays · rule.rate rule.cap discount) := by
  rw [fineOf, if_neg (Nat.not_le.mpr late), read]; rfl

end

/-- The fine is the nearest cent, an exact half down, and no more than the cap (R126, R127). -/
theorem fineOfDays_rounds {n rate cap discount : Nat} :
    let capped := min (n * rate) cap
    let fine := fineOfDays n rate cap discount
    fine ≤ cap ∧ 2 * capped * (100 - discount) ≤ 200 * fine + 100 ∧
      200 * fine < 2 * capped * (100 - discount) + 100 := by
  intro capped fine
  have is : fine = (capped * (100 - discount) + 49) / 100 := rfl
  have low : capped * (100 - discount) ≤ cap * 100 := Nat.mul_le_mul (Nat.min_le_right ..) (Nat.sub_le ..)
  have double : 2 * capped * (100 - discount) = 2 * (capped * (100 - discount)) := Nat.mul_assoc ..
  rw [double]; omega

/-- Settles O39: within the grace by definition; past it by what the reads of the window base and of the overdue days
answer, first to last. -/
theorem fineComputation : Obligations.FineComputation := by
  intro r b rule discount due today days result
  refine ⟨fun within => if_pos within, fun late => ⟨fun x unread => fineOf_stop late unread, fun base read => ?_⟩⟩
  intro closed
  have charged : result = _ := fineOf_charged late read
  refine ⟨fun j x lt before stops => ?waits, fun _ => ⟨fun isClosed all => ?counted, fun outside => ?allOpen⟩⟩
  case waits =>
    rw [charged, chargeableDays_waits lt before stops]; rfl
  case counted =>
    obtain ⟨below, roundUp, roundDown⟩ := fineOfDays_rounds
      (n := ((List.range days).filter fun j => !isClosed j).length) (rate := rule.rate) (cap := rule.cap) (discount := discount)
    exact ⟨_, by rw [charged, chargeableDays_counts isClosed all]; rfl, below, rfl, roundUp, roundDown⟩
  case allOpen =>
    have unread (j : Nat) (lt : j < days) : dayClosed r b base (due + 1 + j) = .ok false :=
      dayClosed_unread (outside.imp_right fun apart w is => (apart w is).imp (by omega) (by omega))
    have every : ((List.range days).filter fun _ => !false).length = days := by simp
    rw [charged, chargeableDays_counts (fun _ => false) unread, every]; rfl

/-! ## The forward shift (R130) -/

section
variable {r : RuleStore} {b : Nat} {base : Option Nat}

theorem shiftForward_last {n day : Nat} (h : n = 0 ∨ 65535 ≤ day) : shiftForward r b base n day = .ok day := by
  cases n with
  | zero => rfl
  | succ n => exact if_pos (h.resolve_left n.succ_ne_zero)

section
variable {day : Nat} (low : day < 65535) (n : Nat)
include low

theorem shiftForward_stop {e : Stop} (read : dayClosed r b base day = .error e) :
    shiftForward r b base (n + 1) day = .error e := by
  rw [shiftForward, if_neg (Nat.not_le.mpr low), read]; rfl

theorem shiftForward_open (read : dayClosed r b base day = .ok false) :
    shiftForward r b base (n + 1) day = .ok day := by
  rw [shiftForward, if_neg (Nat.not_le.mpr low), read]; rfl

theorem shiftForward_closed (read : dayClosed r b base day = .ok true) :
    shiftForward r b base (n + 1) day = shiftForward r b base n (day + 1) := by
  rw [shiftForward, if_neg (Nat.not_le.mpr low), read]; rfl

end

/-- The shift over closed days is that from the day behind them. -/
theorem shiftForward_skip {moved n day : Nat} (bound : day + moved ≤ 65535)
    (closed : ∀ j, j < moved → dayClosed r b base (day + j) = .ok true) :
    shiftForward r b base (moved + n) day = shiftForward r b base n (day + moved) := by
  induction moved generalizing day with
  | zero => rw [Nat.zero_add]; rfl
  | succ moved ih =>
    rw [Nat.add_right_comm, shiftForward_closed (day := day) (by omega) _ (closed 0 moved.succ_pos),
      ih (by omega) fun j lt => by rw [Nat.add_right_comm]; exact closed (j + 1) (Nat.succ_lt_succ lt),
      Nat.add_right_comm]; rfl

/-- Where every day is read, the shift ends within its days and by day 65,535. -/
theorem shiftForward_ends {n day : Nat} (bound : day ≤ 65535)
    (read : ∀ j, j < n → ∃ y, dayClosed r b base (day + j) = .ok y) :
    ∃ moved, moved ≤ n ∧ day + moved ≤ 65535 ∧ shiftForward r b base n day = .ok (day + moved) := by
  induction n generalizing day with
  | zero => exact ⟨0, le_refl 0, bound, rfl⟩
  | succ n ih =>
    by_cases last : 65535 ≤ day
    · exact ⟨0, Nat.zero_le _, bound, shiftForward_last (.inr last)⟩
    have low := Nat.not_le.mp last
    obtain ⟨closed, first⟩ := read 0 n.succ_pos
    cases closed with
    | false => exact ⟨0, Nat.zero_le _, bound, shiftForward_open low n first⟩
    | true =>
      obtain ⟨moved, within, most, rest⟩ := ih (day := day + 1) low fun j lt => by
        rw [Nat.add_right_comm]; exact read (j + 1) (Nat.succ_lt_succ lt)
      refine ⟨moved + 1, Nat.succ_le_succ within, by omega, ?_⟩
      rw [shiftForward_closed low n first, rest, Nat.add_right_comm]; rfl

end

/-! ## The new due day (R129-R132) -/

section
variable {r : RuleStore} {b loanDays due today expiry : Nat}

theorem newDueDay_stop {e : Stop} (read : readBase r = .error e) :
    newDueDay r b loanDays due today expiry = .error e := by
  rw [newDueDay, read]; rfl

theorem newDueDay_shifted {base : Option Nat} (read : readBase r = .ok base) :
    newDueDay r b loanDays due today expiry =
      (shiftForward r b base 31 (candidateDay due today loanDays)).map fun shifted =>
        if min shifted expiry ≤ due then none else some (min shifted expiry, decide (expiry < shifted)) := by
  rw [newDueDay, read]; rfl

end

/-- Settles O40: the shift goes over the closed days from the candidate on, and what it ends in decides. -/
theorem dueDayComputation : Obligations.DueDayComputation := by
  intro r b loanDays due today expiry result
  refine ⟨fun x unread => newDueDay_stop unread, fun base read bound => ?_⟩
  intro candidate closed given
  have inRange : candidate ≤ 65535 := max_le bound (min_le_left ..)
  have shifted : result = _ := newDueDay_shifted read
  have gives {moved : Nat} (h : shiftForward r b base 31 candidate = .ok (candidate + moved)) : given moved := by
    show result = _
    rw [shifted]; exact congrArg _ h
  have skips {moved : Nat} (most : moved ≤ 31) (within : candidate + moved ≤ 65535)
      (all : ∀ j, j < moved → closed j = .ok true) :
      shiftForward r b base 31 candidate = shiftForward r b base (31 - moved) (candidate + moved) := by
    rw [← shiftForward_skip within all, Nat.add_sub_cancel' most]
  have ends (moved : Nat) (most : moved ≤ 31) (within : candidate + moved ≤ 65535)
      (all : ∀ j, j < moved → closed j = .ok true)
      (stop : moved = 31 ∨ candidate + moved = 65535 ∨ closed moved = .ok false) : given moved := by
    refine gives ((skips most within all).trans ?_)
    by_cases last : 31 - moved = 0 ∨ 65535 ≤ candidate + moved
    · exact shiftForward_last last
    obtain ⟨n, more⟩ : ∃ n, 31 - moved = n + 1 := Nat.exists_eq_succ_of_ne_zero fun none => last (.inl none)
    rw [more]
    exact shiftForward_open (by omega) n (stop.resolve_left (by omega) |>.resolve_left (by omega))
  refine ⟨ends, fun n x lt low all stops => ?waits, fun all => ?_, fun unread => ?_⟩
  case waits =>
    have first : shiftForward r b base 31 candidate = .error (.wait x) := by
      rw [skips (by omega) (by omega) all, show 31 - n = 30 - n + 1 by omega]
      exact shiftForward_stop low _ stops
    rw [shifted]; exact congrArg _ first
  · obtain ⟨moved, most, within, is⟩ := shiftForward_ends inRange all
    exact ⟨moved, most, within, gives is⟩
  · exact ends 0 (by omega) inRange (fun j none => absurd none j.not_lt_zero)
      (.inr (.inr (dayClosed_unread unread)))

/-! ## Payments (R135, R148) -/

theorem balanceOf_cons (f : Fine) (fs : List Fine) : balanceOf (f :: fs) = f.amount + balanceOf fs := List.sum_cons

theorem payOff_zero (fs : List Fine) : payOff 0 fs = fs := by
  cases fs <;> rfl

theorem payOff_settled {a : Nat} {f : Fine} (fs : List Fine) (paid : 0 < a) (h : f.amount ≤ a) :
    payOff a (f :: fs) = payOff (a - f.amount) fs := by
  rw [payOff, if_neg (by omega), if_pos h]

theorem payOff_partial {a : Nat} {f : Fine} (fs : List Fine) (paid : 0 < a) (h : a < f.amount) :
    payOff a (f :: fs) = { f with amount := f.amount - a } :: fs := by
  rw [payOff, if_neg (by omega), if_neg (by omega)]

/-- A payment that the balance covers is what the balance falls by. -/
theorem balanceOf_payOff {fines : List Fine} {a : Nat} (covered : a ≤ balanceOf fines) :
    balanceOf (payOff a fines) = balanceOf fines - a := by
  induction fines generalizing a with
  | nil => exact (Nat.zero_sub a).symm
  | cons f fs ih =>
    rw [balanceOf_cons] at covered ⊢
    rcases Nat.eq_zero_or_pos a with rfl | paid
    · rw [payOff_zero, balanceOf_cons]; rfl
    rcases Nat.lt_or_ge a f.amount with less | more
    · rw [payOff_partial fs paid less, balanceOf_cons]; dsimp only; omega
    · rw [payOff_settled fs paid more, ih (by omega)]; omega

/-- A payment settles the oldest fines whole and at most one more in part. -/
theorem payOff_oldest_first (fines : List Fine) (a : Nat) :
    ∃ k, payOff a fines = fines.drop k ∨ ∃ f rest taken, fines.drop k = f :: rest ∧ 0 < taken ∧ taken < f.amount ∧
      payOff a fines = { f with amount := f.amount - taken } :: rest := by
  induction fines generalizing a with
  | nil => exact ⟨0, .inl rfl⟩
  | cons f fs ih =>
    rcases Nat.eq_zero_or_pos a with rfl | paid
    · exact ⟨0, .inl (payOff_zero _)⟩
    rcases Nat.lt_or_ge a f.amount with less | more
    · exact ⟨0, .inr ⟨f, fs, a, rfl, paid, less, payOff_partial fs paid less⟩⟩
    · obtain ⟨k, rest⟩ := ih (a - f.amount)
      exact ⟨k + 1, by rw [payOff_settled fs paid more]; exact rest⟩

/-- No payment leaves a fine of 0. -/
theorem payOff_positive {fines : List Fine} (owed : ∀ f ∈ fines, 0 < f.amount) (a : Nat) :
    ∀ f ∈ payOff a fines, 0 < f.amount := by
  intro f mem
  obtain ⟨k, whole | ⟨g, rest, taken, behind, -, less, is⟩⟩ := payOff_oldest_first fines a
  · rw [whole] at mem
    exact owed f (List.mem_of_mem_drop mem)
  · rw [is] at mem
    rcases List.mem_cons.mp mem with rfl | later
    · exact Nat.sub_pos_of_lt less
    · exact owed f (List.mem_of_mem_drop (i := k) (behind ▸ List.mem_cons_of_mem g later))

/-- Settles O42: the walk of R135 by induction over the fine list, and R148's checks in order. -/
theorem paymentsTakeOldestFirst : Obligations.PaymentsTakeOldestFirst := by
  refine ⟨fun fines a owed covered => ⟨balanceOf_payOff covered, payOff_positive owed a, payOff_oldest_first fines a⟩,
    fun amount patron => ?_⟩
  intro balance
  refine ⟨fun outside => by rw [decidePay, if_pos outside], fun low high clear => ?_, fun low high owed => ?_⟩
  · rw [decidePay, if_neg (by omega)]; exact congrArg Decision.verdict (if_pos clear)
  · rw [decidePay, if_neg (by omega)]; exact congrArg Decision.verdict (if_neg owed)

end Sys2Proof.Decisions

namespace Sys2Proof.RecordImages

open Sys2Proof Sys2Proof.Machine Sys2Proof.Safety

/-! ## Fields of an image (R198) -/

theorem beNat_foldl (os : List Octet) (n : Nat) :
    os.foldl (fun n o => n * 256 + o.toNat) n = n * 256 ^ os.length + beNat os := by
  induction os generalizing n with
  | nil => simp [beNat]
  | cons o os ih => rw [List.foldl_cons, ih, beNat, List.length_cons, pow_succ']; ring

theorem beNat_lt (os : List Octet) : beNat os < 256 ^ os.length := by
  induction os with
  | nil => exact Nat.one_pos
  | cons o os ih =>
    have small : o.toNat ≤ 255 := Nat.lt_succ_iff.mp o.isLt
    have high := Nat.mul_le_mul_right (256 ^ os.length) small
    rw [beNat, List.length_cons, pow_succ]; omega

theorem octetsAt_length (image : Image) (start count : Nat) : (octetsAt image start count).length = count := by
  simp [octetsAt]

theorem octetsAt_inside {image : Image} {start count : Nat} (h : start + count ≤ image.length) :
    octetsAt image start count = (image.drop start).take count := by
  have length : ((image.drop start).take count).length = count := by
    rw [List.length_take, List.length_drop]; omega
  refine List.ext_getElem ((octetsAt_length ..).trans length.symm) fun j _ within => ?_
  have lt : j < count := length ▸ within
  simp [octetsAt, List.getElem?_eq_getElem (show start + j < image.length by omega)]

/-- A field inside the image reads its octets, high octet first. -/
theorem natAt_inside {image : Image} {start count : Nat} (h : start + count ≤ image.length) :
    natAt image start count = field image start count := by
  rw [natAt, octetsAt_inside h, field, beNat_foldl, Nat.zero_mul, Nat.zero_add]

theorem natAt_lt (image : Image) (start count : Nat) : natAt image start count < 256 ^ count := by
  have bound := beNat_lt (octetsAt image start count)
  rwa [octetsAt_length] at bound

theorem keyAt_inside {image : Image} {start : Nat} (h : start + 4 ≤ image.length) :
    (keyAt image start).toNat = field image start 4 := by
  rw [keyAt, BitVec.toNat_ofNat, natAt_inside h]
  exact Nat.mod_eq_of_lt (natAt_inside h ▸ natAt_lt image start 4)

theorem natAt_octet {image : Image} {n : Nat} : natAt image n 1 = (image.getD n 0).toNat := by
  simp [natAt, octetsAt, beNat]

/-- What a run of octets spells is read from the run alone. -/
theorem natAt_run (image : Image) (n size : Nat) {i count : Nat} (h : i + count ≤ size) :
    natAt image (n + i) count = natAt ((image.drop n).take size) i count := by
  refine congrArg beNat (List.map_congr_left fun j mem => ?_)
  have lt : i + j < size := by have := List.mem_range.mp mem; omega
  simp [List.getD_eq_getElem?_getD, lt, Nat.add_assoc]

/-! ## Octets written into an image (R134, R147, R157) -/

section
variable {image : Image} {start : Nat} {new : List Octet}

theorem putOctets_length (h : start + new.length ≤ image.length) :
    (putOctets image start new).length = image.length := by
  simp only [putOctets, List.length_append, List.length_take, List.length_drop]; omega

theorem putOctets_before (h : start ≤ image.length) : (putOctets image start new).take start = image.take start := by
  rw [putOctets, List.append_assoc, List.take_left' (List.length_take_of_le h)]

theorem putOctets_behind (h : start ≤ image.length) {n : Nat} (is : n = start + new.length) :
    (putOctets image start new).drop n = image.drop n := by
  rw [putOctets, is, List.drop_left' (by rw [List.length_append, List.length_take_of_le h])]

theorem putOctets_run (h : start ≤ image.length) {i size : Nat} (fits : i + size ≤ new.length) :
    ((putOctets image start new).drop (start + i)).take size = (new.drop i).take size := by
  rw [putOctets, List.append_assoc, ← List.drop_drop, List.drop_left' (List.length_take_of_le h),
    List.drop_append_of_le_length (by omega), List.take_append_of_le_length (by rw [List.length_drop]; omega)]

theorem putOctets_one (h : start < image.length) (o : Octet) : putOctets image start [o] = image.set start o := by
  rw [List.set_eq_take_append_cons_drop, if_pos h, putOctets, List.append_assoc]; rfl

end

/-- A number written as a word of the manual's width. -/
theorem octetsOf_ofNat (w n : Nat) : octetsOf w (BitVec.ofNat (8 * w) n) = beOctets w n := by
  rw [BranchLink.octetsOf_eq, BitVec.toNat_ofNat, Nat.pow_mul]
  exact BranchLink.beOctets_mod w n

/-! ## Lists packed from the first slot (R134, R157) -/

/-- A list whose elements take `size` octets each, packed from the first of `count` slots, the slots behind it 0. -/
def packed {α : Type} (octets : α → List Octet) (size count : Nat) (l : List α) : List Octet :=
  l.flatMap octets ++ List.replicate (size * count - size * l.length) 0

section
variable {α : Type} {octets : α → List Octet} {size : Nat} (each : ∀ a, (octets a).length = size)
include each

theorem packed_length {count : Nat} {l : List α} (fits : l.length ≤ count) :
    (packed octets size count l).length = size * count := by
  have room := Nat.mul_le_mul_left size fits
  rw [packed, List.length_append, List.length_replicate, List.length_flatMap, List.map_congr_left fun a _ => each a,
    List.map_const', List.sum_replicate, smul_eq_mul, Nat.mul_comm l.length]
  omega

/-- Slot `k` of a packed list holds its element `k`, or 0. -/
theorem packed_slot {count k : Nat} {l : List α} (fits : l.length ≤ count) (slot : k < count) :
    ((packed octets size count l).drop (size * k)).take size = l[k]?.elim (List.replicate size 0) octets := by
  induction l generalizing count k with
  | nil =>
    have room := Nat.mul_le_mul_left size (Nat.succ_le_of_lt slot)
    rw [Nat.mul_succ] at room
    have enough : min size (size * count - size * k) = size := by omega
    simp [packed, enough]
  | cons a l ih =>
    obtain ⟨count, rfl⟩ := Nat.exists_eq_succ_of_ne_zero (Nat.ne_of_gt (Nat.zero_lt_of_lt slot))
    have rest : packed octets size (count + 1) (a :: l) = octets a ++ packed octets size count l := by
      simp [packed, Nat.mul_succ, Nat.add_sub_add_right]
    rw [rest]
    cases k with
    | zero => rw [Nat.mul_zero, List.drop_zero, List.take_left' (each a)]; rfl
    | succ k =>
      rw [Nat.mul_succ, Nat.add_comm, ← List.drop_drop, List.drop_left' (each a)]
      exact ih (Nat.le_of_succ_le_succ fits) (Nat.lt_of_succ_lt_succ slot)

end

/-- The slots that are not empty are the list, where its elements stand in the first slots and none is empty. -/
theorem filter_slots {α : Type} {slot : Nat → α} {filled : α → Bool} {count : Nat} {l : List α}
    (fits : l.length ≤ count) (holds : ∀ k (h : k < l.length), slot k = l[k]) (full : ∀ a ∈ l, filled a)
    (empty : ∀ k, l.length ≤ k → k < count → ¬ filled (slot k)) :
    ((List.range count).map slot).filter filled = l := by
  obtain ⟨more, rfl⟩ := Nat.exists_eq_add_of_le fits
  have first : (List.range l.length).map slot = l :=
    List.ext_getElem (by simp) fun k _ h => by simpa using holds k h
  have behind : (((List.range more).map (l.length + ·)).map slot).filter filled = [] := by
    simp only [List.filter_eq_nil_iff, List.mem_map, List.mem_range]
    rintro _ ⟨_, ⟨j, lt, rfl⟩, rfl⟩
    exact empty _ (Nat.le_add_right ..) (Nat.add_lt_add_left lt _)
  rw [List.range_add, List.map_append, List.filter_append, first, behind, List.append_nil,
    List.filter_eq_self.mpr full]

/-! ## Fine lists (R133, R134) -/

theorem fine_octets_length (f : Fine) : f.octets.length = 8 := rfl

section
variable {patron : Image} {fines : List Fine} (size : patron.length = 128) (fits : fines.length ≤ 12)

theorem putFines_eq (fits : fines.length ≤ 12) :
    putFines patron fines = putOctets patron 32 (packed Fine.octets 8 12 fines) := by
  rw [putFines, List.take_of_length_le fits]; rfl

include size fits

theorem putFines_length : (putFines patron fines).length = 128 := by
  rw [putFines_eq fits, putOctets_length (by rw [packed_length fine_octets_length fits]; omega), size]

theorem putFines_before : (putFines patron fines).take 32 = patron.take 32 := by
  rw [putFines_eq fits, putOctets_before (by omega)]

theorem putFines_slot {k : Nat} (slot : k < 12) : ((putFines patron fines).drop (32 + 8 * k)).take 8 =
    fines[k]?.elim (List.replicate 8 0) Fine.octets := by
  rw [putFines_eq fits, putOctets_run (by omega) (by rw [packed_length fine_octets_length fits]; omega),
    packed_slot fine_octets_length fits slot]

end

/-- A fine slot is read from its own 8 octets. -/
theorem fineSlot_run {patron : Image} {k : Nat} {run : List Octet}
    (is : (patron.drop (32 + 8 * k)).take 8 = run) :
    fineSlot patron k = ⟨natAt run 0 4, natAt run 4 2, natAt run 6 2⟩ := by
  have at0 : natAt patron (32 + 8 * k) 4 = _ := natAt_run patron (32 + 8 * k) 8 (i := 0) (by omega)
  have at4 := natAt_run patron (32 + 8 * k) 8 (i := 4) (count := 2) (by omega)
  have at6 := natAt_run patron (32 + 8 * k) 8 (i := 6) (count := 2) (by omega)
  rw [Nat.add_right_comm] at at4 at6
  rw [fineSlot, at0, at4, at6, is]

/-- The fields of a fine that its slot can hold (R198). -/
def FineFits (f : Fine) : Prop := f.item < 2 ^ 32 ∧ 1 ≤ f.amount ∧ f.amount ≤ 65535 ∧ f.day ≤ 65535

/-- A fine's octets spell its fields. -/
theorem fine_octets_read {f : Fine} (h : FineFits f) :
    (⟨natAt f.octets 0 4, natAt f.octets 4 2, natAt f.octets 6 2⟩ : Fine) = f := by
  obtain ⟨item, -, amount, day⟩ := h
  have item' : natAt f.octets 0 4 = f.item := (beNat_beOctets 4 _).trans (Nat.mod_eq_of_lt item)
  have amount' : natAt f.octets 4 2 = f.amount := (beNat_beOctets 2 _).trans (Nat.mod_eq_of_lt (by omega))
  have day' : natAt f.octets 6 2 = f.day := (beNat_beOctets 2 _).trans (Nat.mod_eq_of_lt (by omega))
  rw [item', amount', day']

/-- A fine list that fits is read back as it was written. -/
theorem fineList_putFines {patron : Image} {fines : List Fine} (size : patron.length = 128)
    (fits : fines.length ≤ 12) (each : ∀ f ∈ fines, FineFits f) : fineList (putFines patron fines) = fines := by
  refine filter_slots fits (fun k lt => ?_) (fun f mem => ?_) fun k behind lt => ?_
  · have run := putFines_slot size fits (k := k) (by omega)
    rw [List.getElem?_eq_getElem lt] at run
    exact (fineSlot_run run).trans (fine_octets_read (each _ (List.getElem_mem lt)))
  · obtain ⟨-, owed, -⟩ := each f mem
    exact decide_eq_true (Nat.ne_of_gt owed)
  · have run := putFines_slot size fits lt
    rw [List.getElem?_eq_none behind] at run
    rw [fineSlot_run run]; decide

/-! ## Hold lists (R154, R157, R199) -/

/-- A hold behind others is kept if it is the first of its patron (R154). -/
theorem firstHolds_concat (seen : List Nat) (hs : List Hold) (h : Hold) : firstHolds seen (hs ++ [h]) =
    firstHolds seen hs ++ if h.patron ∈ seen ∨ ∃ g ∈ hs, g.patron = h.patron then [] else [h] := by
  induction hs generalizing seen with
  | nil => simp [firstHolds]
  | cons g hs ih =>
    rw [List.cons_append, firstHolds, firstHolds]
    by_cases old : g.patron ∈ seen
    · have same : (h.patron ∈ seen ∨ ∃ f ∈ g :: hs, f.patron = h.patron) ↔
          h.patron ∈ seen ∨ ∃ f ∈ hs, f.patron = h.patron := by
        rw [List.exists_mem_cons_iff]
        refine ⟨fun either => ?_, fun either => either.imp_right .inr⟩
        rcases either with mem | is | later
        exacts [.inl mem, .inl (is ▸ old), .inr later]
      rw [if_pos old, if_pos old, ih]; simp only [same]
    · have same : (h.patron ∈ seen ∨ ∃ f ∈ g :: hs, f.patron = h.patron) ↔
          h.patron ∈ g.patron :: seen ∨ ∃ f ∈ hs, f.patron = h.patron := by
        rw [List.exists_mem_cons_iff, List.mem_cons, eq_comm (a := h.patron)]; tauto
      rw [if_neg old, if_neg old, ih, List.cons_append]; simp only [same]

/-- Slot `k` is not empty, and no slot before it holds the same patron's (R154). -/
abbrev FirstOf (slot : Nat → Hold) (k : Nat) : Prop :=
  (slot k).patron ≠ 0 ∧ ∀ j, j < k → (slot j).patron ≠ (slot k).patron

theorem earlier_hold_iff {slot : Nat → Hold} {n : Nat} (named : (slot n).patron ≠ 0) :
    (∃ g ∈ ((List.range n).map slot).filter fun h => decide (h.patron ≠ 0), g.patron = (slot n).patron) ↔
      ¬ FirstOf slot n := by
  refine ⟨fun ⟨g, mem, same⟩ first => ?_, fun later => ?_⟩
  · obtain ⟨j, lt, rfl⟩ := List.mem_map.mp (List.mem_of_mem_filter mem)
    exact first.2 j (List.mem_range.mp lt) same
  · obtain ⟨j, lt, same⟩ : ∃ j, j < n ∧ (slot j).patron = (slot n).patron := by
      by_contra none
      exact later ⟨named, fun j lt same => none ⟨j, lt, same⟩⟩
    exact ⟨slot j, List.mem_filter.mpr ⟨List.mem_map_of_mem (List.mem_range.mpr lt),
      decide_eq_true (same ▸ named)⟩, same⟩

/-- A hold list passes over empty slots and later holds of one patron (R154). -/
theorem firstHolds_slots (slot : Nat → Hold) (n : Nat) :
    firstHolds [] (((List.range n).map slot).filter fun h => decide (h.patron ≠ 0)) =
      ((List.range n).filter fun k => decide (FirstOf slot k)).map slot := by
  induction n with
  | zero => rfl
  | succ n ih =>
    rw [List.range_succ, List.map_append, List.filter_append, List.filter_append, List.map_append, ← ih,
      List.map_singleton]
    by_cases empty : (slot n).patron = 0
    · have passed : ¬ FirstOf slot n := fun first => first.1 empty
      rw [List.filter_cons_of_neg (by simpa using empty),
        List.filter_cons_of_neg (by rw [decide_eq_false passed]; decide)]
      exact (congrArg _ (List.append_nil _)).trans (List.append_nil _).symm
    · have kept : [slot n].filter (fun h => decide (h.patron ≠ 0)) = [slot n] :=
        List.filter_cons_of_pos (decide_eq_true empty)
      rw [kept, firstHolds_concat]
      by_cases first : FirstOf slot n
      · rw [if_neg (not_or_intro List.not_mem_nil fun old => (earlier_hold_iff empty).mp old first),
          List.filter_cons_of_pos (by exact decide_eq_true first)]; rfl
      · rw [if_pos (.inr ((earlier_hold_iff empty).mpr first)),
          List.filter_cons_of_neg (by rw [decide_eq_false first]; decide)]; rfl

/-- A list that holds each patron once loses nothing. -/
theorem firstHolds_once {hs : List Hold} (seen : List Nat) (once : (hs.map Hold.patron).Nodup)
    (unseen : ∀ h ∈ hs, h.patron ∉ seen) : firstHolds seen hs = hs := by
  induction hs generalizing seen with
  | nil => rfl
  | cons h hs ih =>
    obtain ⟨alone, rest⟩ := List.nodup_cons.mp once
    rw [firstHolds, if_neg (unseen h List.mem_cons_self), ih _ rest]
    intro g mem
    rw [List.mem_cons, not_or]
    exact ⟨fun same => alone (same ▸ List.mem_map_of_mem mem), unseen g (List.mem_cons_of_mem h mem)⟩

theorem hold_octets_length (h : Hold) : h.octets.length = 10 := rfl

section
variable {title : Image} {holds : List Hold} (size : title.length = 256) (fits : holds.length ≤ 24)

theorem putHolds_eq (fits : holds.length ≤ 24) :
    putHolds title holds = putOctets title 5 (octet holds.length :: packed Hold.octets 10 24 holds) := by
  rw [putHolds, List.take_of_length_le fits]; rfl

include fits in
theorem holds_written_length : (octet holds.length :: packed Hold.octets 10 24 holds).length = 241 := by
  rw [List.length_cons, packed_length hold_octets_length fits]

include size fits

theorem putHolds_length : (putHolds title holds).length = 256 := by
  rw [putHolds_eq fits, putOctets_length (by rw [holds_written_length fits]; omega), size]

theorem putHolds_before : (putHolds title holds).take 5 = title.take 5 := by
  rw [putHolds_eq fits, putOctets_before (by omega)]

theorem putHolds_behind : (putHolds title holds).drop 246 = title.drop 246 := by
  rw [putHolds_eq fits, putOctets_behind (by omega) (by rw [holds_written_length fits])]

theorem putHolds_freeCopies : freeCopies (putHolds title holds) = freeCopies title := by
  have front (image : Image) : freeCopies image = natAt (image.take 5) 4 1 := natAt_run image 0 5 (i := 4) (by omega)
  rw [front, front, putHolds_before size fits]

theorem putHolds_count : natAt (putHolds title holds) 5 1 = holds.length := by
  have run : ((putHolds title holds).drop 5).take 1 = [octet holds.length] := by
    rw [putHolds_eq fits]
    exact putOctets_run (i := 0) (by omega) (by rw [holds_written_length fits]; omega)
  have read : natAt (putHolds title holds) 5 1 = _ := natAt_run _ 5 1 (i := 0) (by omega)
  rw [read, run, natAt_octet]
  exact (octet_toNat _).trans (Nat.mod_eq_of_lt (by omega))

theorem putHolds_slot {k : Nat} (slot : k < 24) : ((putHolds title holds).drop (6 + 10 * k)).take 10 =
    holds[k]?.elim (List.replicate 10 0) Hold.octets := by
  have place : 6 + 10 * k = 5 + (10 * k + 1) := by omega
  rw [putHolds_eq fits, place, putOctets_run (by omega) (by rw [holds_written_length fits]; omega), List.drop_succ_cons,
    packed_slot hold_octets_length fits slot]

end

/-- The hold that the 10 octets of a slot spell (R199). -/
def holdSpelled (run : List Octet) : Hold :=
  ⟨natAt run 0 4, natAt run 4 1 % 64, decide (natAt run 4 1 / 64 % 2 = 1), natAt run 5 2, natAt run 7 2, natAt run 9 1⟩

/-- A hold slot is read from its own 10 octets. -/
theorem holdSlot_run {title : Image} {k : Nat} {run : List Octet}
    (is : (title.drop (6 + 10 * k)).take 10 = run) : holdSlot title k = holdSpelled run := by
  have read (i count : Nat) (h : i + count ≤ 10) : natAt title (6 + 10 * k + i) count = natAt run i count :=
    is ▸ natAt_run title (6 + 10 * k) 10 h
  have at0 : natAt title (6 + 10 * k) 4 = natAt run 0 4 := read 0 4 (by omega)
  simp only [holdSlot, holdSpelled, at0, read 4 1 (by omega), read 5 2 (by omega), read 7 2 (by omega),
    read 9 1 (by omega)]

/-- The fields of a hold that its slot can hold (R155, R199). -/
def HoldFits (h : Hold) : Prop := 1 ≤ h.patron ∧ h.patron < 2 ^ 32 ∧ h.branch ≤ 63 ∧ h.placed ≤ 65535 ∧
  h.suspend ≤ 65535 ∧ h.offset ≤ 255 ∧ (h.ready = false → h.offset = 0)

/-- A hold's octets spell its fields. -/
theorem holdSpelled_octets {h : Hold} (fits : HoldFits h) : holdSpelled h.octets = h := by
  obtain ⟨-, patron, branch, placed, suspend, offset, waiting⟩ := fits
  have patron' : natAt h.octets 0 4 = h.patron := (beNat_beOctets 4 _).trans (Nat.mod_eq_of_lt patron)
  have placed' : natAt h.octets 5 2 = h.placed := (beNat_beOctets 2 _).trans (Nat.mod_eq_of_lt (by omega))
  have suspend' : natAt h.octets 7 2 = h.suspend := (beNat_beOctets 2 _).trans (Nat.mod_eq_of_lt (by omega))
  have flags : natAt h.octets 4 1 = h.branch % 64 + if h.ready then 64 else 0 := by
    rw [natAt_octet]
    exact (octet_toNat _).trans (Nat.mod_eq_of_lt (by split <;> omega))
  have offset' : natAt h.octets 9 1 = h.offset := by
    rw [natAt_octet]
    refine (octet_toNat _).trans ?_
    cases ready : h.ready with
    | true => exact Nat.mod_eq_of_lt (Nat.lt_succ_of_le offset)
    | false => exact (waiting ready).symm
  have branch' : natAt h.octets 4 1 % 64 = h.branch := by rw [flags]; split <;> omega
  have ready' : decide (natAt h.octets 4 1 / 64 % 2 = 1) = h.ready := by
    rw [flags]
    cases h.ready with
    | true => exact decide_eq_true (by rw [if_pos rfl]; omega)
    | false => exact decide_eq_false (by rw [if_neg (by decide)]; omega)
  rw [holdSpelled, patron', branch', ready', placed', suspend', offset']

/-- A hold list that fits is read back as it was written. -/
theorem holdList_putHolds {title : Image} {holds : List Hold} (size : title.length = 256)
    (fits : holds.length ≤ 24) (once : (holds.map Hold.patron).Nodup) (each : ∀ h ∈ holds, HoldFits h) :
    holdList (putHolds title holds) = holds := by
  have slots : ((List.range 24).map (holdSlot (putHolds title holds))).filter (fun h => decide (h.patron ≠ 0)) =
      holds := by
    refine filter_slots fits (fun k lt => ?_) (fun h mem => ?_) fun k behind lt => ?_
    · have run := putHolds_slot size fits (k := k) (by omega)
      rw [List.getElem?_eq_getElem lt] at run
      exact (holdSlot_run run).trans (holdSpelled_octets (each _ (List.getElem_mem lt)))
    · obtain ⟨named, -⟩ := each h mem
      exact decide_eq_true (Nat.ne_of_gt named)
    · have run := putHolds_slot size fits lt
      rw [List.getElem?_eq_none behind] at run
      rw [holdSlot_run run]; decide
  rw [holdList, slots, firstHolds_once [] once fun _ _ => List.not_mem_nil]

/-- The fields of a hold slot, its flags octet taken apart (R199). -/
theorem holdSlot_fields {title : Image} (size : title.length = 256) {k : Nat} (slot : k < 24) :
    let flags := title.getD (10 + 10 * k) 0
    holdSlot title k = ⟨field title (6 + 10 * k) 4, (flags &&& 0x3F).toNat, flags.getLsbD 6,
      field title (11 + 10 * k) 2, field title (13 + 10 * k) 2, field title (15 + 10 * k) 1⟩ := by
  intro flags
  have branch : flags.toNat % 64 = (flags &&& 0x3F).toNat := (Nat.and_two_pow_sub_one_eq_mod flags.toNat 6).symm
  have ready : decide (flags.toNat / 64 % 2 = 1) = flags.getLsbD 6 :=
    (Nat.testBit_eq_decide_div_mod_eq (x := flags.toNat) (i := 6)).symm
  have place (i : Nat) : 6 + 10 * k + i = 6 + i + 10 * k := Nat.add_right_comm ..
  simp only [holdSlot, place, natAt_octet (n := 6 + 4 + 10 * k)]
  rw [natAt_inside (by omega), natAt_inside (by omega), natAt_inside (by omega), natAt_inside (by omega),
    ← branch, ← ready]

/-! ## The fields and lists of the three kinds of image (R198) -/

theorem patron_fields {patron : Image} (size : patron.length = 128) :
    patronClassOf patron = field patron 4 1 ∧ cardExpiry patron = field patron 6 2 ∧
    (manualBlock patron = true ↔ field patron 8 1 ≠ 0) ∧ holdsCount patron = field patron 9 1 := by
  have read {start count : Nat} (h : start + count ≤ 128) := natAt_inside (size.symm ▸ h)
  exact ⟨read (by omega), read (by omega), by rw [manualBlock, read (by omega), decide_eq_true_iff], read (by omega)⟩

theorem fineSlot_fields {patron : Image} (size : patron.length = 128) {k : Nat} (slot : k < 12) : fineSlot patron k =
    ⟨field patron (32 + 8 * k) 4, field patron (36 + 8 * k) 2, field patron (38 + 8 * k) 2⟩ := by
  rw [fineSlot, natAt_inside (by omega), natAt_inside (by omega), natAt_inside (by omega)]

theorem item_fields {item : Image} (size : item.length = 32) :
    itemNumber item = field item 0 4 ∧ (itemTitle item).toNat = field item 4 4 ∧ itemClass item = field item 8 1 ∧
    owningBranch item = field item 9 1 ∧ (loanPresent item = true ↔ field item 10 1 ≠ 0) ∧
    (borrower item).toNat = field item 11 4 ∧ dueDay item = field item 15 2 ∧ renewalsUsed item = field item 17 1 := by
  have read {start count : Nat} (h : start + count ≤ 32) := natAt_inside (size.symm ▸ h)
  exact ⟨read (by omega), keyAt_inside (by omega), read (by omega), read (by omega),
    by rw [loanPresent, read (by omega), decide_eq_true_iff], keyAt_inside (by omega), read (by omega), read (by omega)⟩

/-- A renewal writes octets 15 to 17 alone (R147). -/
theorem putRenewal_eq {item : Image} (size : item.length = 32) (day : Nat) : putRenewal item day =
    item.take 15 ++ octetsOf 2 (BitVec.ofNat 16 day) ++ [BitVec.ofNat 8 (field item 17 1 + 1)] ++ item.drop 18 := by
  have used : renewalsUsed item = field item 17 1 := natAt_inside (by omega)
  have word : octetsOf 2 (BitVec.ofNat 16 day) = beOctets 2 day := octetsOf_ofNat 2 day
  rw [putRenewal, putOctets, used, word, ← List.append_assoc]; rfl

theorem fine_octets_words (f : Fine) : f.octets = octetsOf 4 (BitVec.ofNat 32 f.item) ++
    octetsOf 2 (BitVec.ofNat 16 f.amount) ++ octetsOf 2 (BitVec.ofNat 16 f.day) :=
  congrArg₂ (· ++ ·) (congrArg₂ (· ++ ·) (octetsOf_ofNat 4 _).symm (octetsOf_ofNat 2 _).symm) (octetsOf_ofNat 2 _).symm

theorem hold_octets_words {h : Hold} (branch : h.branch ≤ 63) : h.octets = octetsOf 4 (BitVec.ofNat 32 h.patron) ++
    [BitVec.ofNat 8 (if h.ready = true then 0x40 + h.branch else h.branch)] ++
    octetsOf 2 (BitVec.ofNat 16 h.placed) ++ octetsOf 2 (BitVec.ofNat 16 h.suspend) ++
    [if h.ready = true then BitVec.ofNat 8 h.offset else 0] := by
  have patron : octetsOf 4 (BitVec.ofNat 32 h.patron) = beOctets 4 h.patron := octetsOf_ofNat 4 _
  have day (d : Nat) : octetsOf 2 (BitVec.ofNat 16 d) = beOctets 2 d := octetsOf_ofNat 2 d
  rw [Hold.octets, patron, day, day, Nat.mod_eq_of_lt (Nat.lt_succ_of_le branch)]
  cases h.ready
  · rfl
  · rw [if_pos rfl, if_pos rfl, if_pos rfl, if_pos rfl, Nat.add_comm]; rfl

/-- Settles O45: the fields by `natAt_inside`, the lists by their slots, what is written by `putOctets` and `packed`. -/
theorem listsInImagesRoundTrip : Obligations.ListsInImagesRoundTrip := by
  refine ⟨fun patron size => ?patron, fun item size => ?item, fun title size => ?title, fun h => rfl,
    fun patron fines k size fits slot => ?fineSlots, fun title holds k size fits branches slot => ?holdSlots,
    fun patron fines size fits each => ⟨fineList_putFines size fits each, putFines_length size fits,
      putFines_before size fits⟩,
    fun title holds size fits once each => ⟨congrArg _ (holdList_putHolds size fits once each),
      putHolds_length size fits, putHolds_freeCopies size fits, putHolds_before size fits,
      putHolds_behind size fits, putHolds_count size fits⟩⟩
  case patron =>
    obtain ⟨cls, expiry, blocked, count⟩ := patron_fields size
    refine ⟨cls, expiry, blocked, count, ?_, fun n => putOctets_one (by omega) _⟩
    exact congrArg _ (List.map_congr_left fun k mem => fineSlot_fields size (List.mem_range.mp mem))
  case item =>
    obtain ⟨number, title, cls, branch, loan, borrowed, due, used⟩ := item_fields size
    exact ⟨number, title, cls, branch, loan, borrowed, due, used, putRenewal_eq size⟩
  case title =>
    intro flags slot
    refine ⟨natAt_inside (by omega), ?_⟩
    have slots : (List.range 24).map (holdSlot title) = (List.range 24).map slot :=
      List.map_congr_left fun k mem => holdSlot_fields size (List.mem_range.mp mem)
    rw [holdList, slots]
    exact firstHolds_slots slot 24
  case fineSlots =>
    rw [putFines_slot size fits slot]
    cases fines[k]? with
    | none => rfl
    | some f => exact fine_octets_words f
  case holdSlots =>
    rw [putHolds_slot size fits slot]
    cases is : holds[k]? with
    | none => rfl
    | some h => exact hold_octets_words (branches h (List.mem_of_getElem? is))

end Sys2Proof.RecordImages

namespace Sys2Proof.Decisions

open Sys2Proof Sys2Proof.Machine

/-! ## Computations that may stop (R137, R139) -/

section
variable {α β : Type} {holds : Bool} {code : ResultCode}

theorem check_passed (h : holds = true) (rest : Unit → Except Stop α) : (check holds code >>= rest) = rest () := by
  rw [Transactions.check_eq, if_pos h]; rfl

theorem check_refused (h : holds = false) (rest : Unit → Except Stop α) :
    (check holds code >>= rest) = .error (.refuse code) := by
  rw [Transactions.check_eq, if_neg (Bool.not_eq_true _ ▸ h)]; rfl

theorem read_served (a : α) (rest : α → Except Stop β) : (Except.ok a >>= rest) = rest a := rfl

theorem read_stopped (e : Stop) (rest : α → Except Stop β) : (Except.error e >>= rest) = .error e := rfl

end

/-! ## The renewal checks (R141-R147) -/

section
variable {r : RuleStore} {today : Nat} {p : Key} {patron title item : Image}

/-- Checks 1 to 5: the code of the first one that fails (R142, R143). -/
def earlyRefusal (today : Nat) (p : Key) (patron item : Image) : Option ResultCode :=
  if loanPresent item = false then some .notOnLoan
  else if borrower item ≠ p then some .notYours
  else if itemTitle item = 0 then some .unknownTitle
  else if cardExpiry patron ≤ today then some .cardExpired
  else if manualBlock patron = true then some .blocked
  else none

/-- The checks of a renewal are one computation, which stops at the first check that fails (R141). -/
theorem decideRenew_checks : (decideRenew r today p patron title item).verdict = verdictOf (do
    renewItemChecks p item
    let (cls, rule) ← renewRuleChecks r today patron item
    renewOutcome r today p patron title item cls rule) := by
  rw [decideRenew]
  cases renewItemChecks p item with
  | error e => rw [read_stopped]
  | ok _ =>
    rw [read_served]
    cases renewRuleChecks r today patron item with
    | error e => rw [read_stopped]
    | ok entries => rw [read_served]

/-- The holds that check 9 counts (R145, R156). -/
theorem othersWaiting_eq : othersWaiting p.toNat today title = (holdList title).countP fun h =>
    decide (h.patron ≠ p.toNat ∧ h.ready = false ∧ (h.suspend = 0 ∨ h.suspend ≤ today)) := by
  simp [othersWaiting, Hold.activeWaiting]

theorem earlyRefusal_none (h : earlyRefusal today p patron item = none) : loanPresent item = true ∧ borrower item = p ∧
    itemTitle item ≠ 0 ∧ today < cardExpiry patron ∧ manualBlock patron = false := by
  rw [earlyRefusal] at h
  split_ifs at h with noLoan other zero expired blocked
  exact ⟨Bool.eq_true_of_not_eq_false noLoan, not_not.mp other, zero, Nat.not_le.mp expired,
    Bool.eq_false_of_not_eq_true blocked⟩

/-- The first of the early checks that fails refuses, whatever the rule store holds (R142, R143). -/
theorem decideRenew_refused {code : ResultCode} (h : earlyRefusal today p patron item = some code) :
    (decideRenew r today p patron title item).verdict = .refuse code := by
  rw [decideRenew_checks, renewItemChecks]
  rw [earlyRefusal] at h
  split at h
  next noLoan => cases h; rw [check_refused noLoan]; rfl
  next loan =>
  rw [check_passed (Bool.eq_true_of_not_eq_false loan)]
  split at h
  next other => cases h; rw [check_refused (decide_eq_false other)]; rfl
  next own =>
  rw [check_passed (decide_eq_true (not_not.mp own))]
  split at h
  next zero => cases h; rw [check_refused (decide_eq_false (not_not.mpr zero))]; rfl
  next named =>
  rw [check_passed (decide_eq_true named), renewRuleChecks]
  split at h
  next expired => cases h; rw [check_refused (decide_eq_false (Nat.not_lt.mpr expired))]; rfl
  next current =>
  rw [check_passed (decide_eq_true (Nat.not_le.mp current))]
  split at h
  next blocked => cases h; rw [check_refused (by rw [blocked]; rfl)]; rfl
  next => cases h

end

/-- Settles O38: the decision is one computation, and each check that passes and each read that is served brings it to the
next one. -/
theorem renewalChecksInOrder : Obligations.RenewalChecksInOrder := by
  intro r today p patron title item
  dsimp only
  rw [← othersWaiting_eq]
  refine ⟨fun code failed => decideRenew_refused failed, fun passed => ?_⟩
  obtain ⟨loan, own, named, current, unblocked⟩ := earlyRefusal_none passed
  rw [decideRenew_checks, renewItemChecks, check_passed loan, check_passed (decide_eq_true own),
    check_passed (decide_eq_true named), renewRuleChecks, check_passed (decide_eq_true current),
    check_passed (by rw [unblocked]; rfl)]
  -- The two rule reads and check 6 (R144).
  refine ⟨fun b unread => ?classWaits, fun co b read unread => ?ruleWaits, fun co ro read read' missing => ?noRule,
    fun cls rule read read' => ?_⟩
  case classWaits => rw [unread, read_stopped]; rfl
  all_goals rw [read, read_served]
  case ruleWaits => rw [unread, read_stopped]; rfl
  all_goals
    rw [read', read_served]
    dsimp only
  case noRule =>
    rcases missing with rfl | rfl
    · rfl
    · cases co <;> rfl
  -- Checks 7 and 8 (R144).
  refine ⟨fun fixed => ?_, fun renewable used => ?_, fun renewable unused => ?_⟩
  · rw [check_refused (decide_eq_false fixed)]; rfl
  · rw [check_passed (decide_eq_true renewable), check_refused (decide_eq_false (Nat.not_lt.mpr used))]; rfl
  rw [check_passed (decide_eq_true renewable), check_passed (decide_eq_true unused), read_served]
  dsimp only
  rw [renewOutcome]
  -- Check 9 (R145).
  refine ⟨fun held => ?_, fun free => ?_⟩
  · rw [check_refused (decide_eq_false (Nat.not_le.mpr held))]; rfl
  rw [check_passed (decide_eq_true free)]
  -- The fine stage: checks 10 and 11 behind the fine's reads (R146).
  refine ⟨fun b unread => ?_, fun fine fined => ?_⟩
  · rw [unread, read_stopped]; rfl
  rw [fined, read_served]
  refine ⟨fun owed full => ?_, fun room => ?_⟩
  · rw [check_refused (decide_eq_false (by omega))]; rfl
  rw [check_passed (decide_eq_true room)]
  refine ⟨fun above => ?_, fun below => ?_⟩
  · rw [check_refused (decide_eq_false (Nat.not_lt.mpr above))]; rfl
  rw [check_passed (decide_eq_true below)]
  -- The due stage: check 12 behind the due day's reads, and the renewal (R146, R147).
  refine ⟨fun b unread => ?_, fun unmoved => ?_, fun day shortened given => ?_⟩
  · rw [unread, read_stopped]; rfl
  · rw [unmoved, read_served]; rfl
  · rw [given, read_served]; rfl


/-! ## ACCOUNT (R150, R151) -/

/-- A patron is blocked by hand, by a blank class entry, or by a balance that reaches the threshold of the class (R151). -/
theorem blockedIndication_iff {patron : Image} {co : Option PatronClass} : blockedIndication patron co = true ↔
    manualBlock patron = true ∨ co = none ∨ ∃ cls, co = some cls ∧ cls.threshold ≤ balanceOf (fineList patron) := by
  cases co <;> simp [blockedIndication]

section
variable {r : RuleStore} {patron : Image}

theorem decideAccount_waits {b : BlockId} (unread : readClass r (patronClassOf patron) = .error (.wait b)) :
    (decideAccount r patron).verdict = .wait b := by
  rw [decideAccount, unread, read_stopped]; rfl

theorem decideAccount_reports {co : Option PatronClass} (read : readClass r (patronClassOf patron) = .ok co) :
    (decideAccount r patron).verdict = .succeed .accountInfo (accountFields patron (blockedIndication patron co)) := by
  rw [decideAccount, read, read_served]; rfl

end

/-! ## HOLD (R159-R161) -/

section
variable {r : RuleStore} {today : Nat} {p : Key} {pickup : Octet} {patron title : Image}

theorem holdOf_isNone_iff {holds : List Hold} :
    (holdOf p holds).isNone = true ↔ ¬ ∃ h ∈ holds, h.patron = p.toNat := by
  simp [holdOf]

/-- Behind the octet of the pickup branch the checks of a hold are one computation, which stops at the first check that
fails (R159). -/
theorem decideHold_checks (branch : pickup.toNat ≤ 63) : (decideHold r today p pickup patron title).verdict = verdictOf (do
    let cls ← holdPatronChecks r today patron
    holdOutcome today p pickup patron title cls) := by
  rw [decideHold, if_neg (Nat.not_lt.mpr branch)]
  cases holdPatronChecks r today patron with
  | error e => rw [read_stopped]
  | ok cls => rw [read_served]

/-- Checks 5 to 7, and the hold placed at the tail (R161). -/
theorem holdOutcome_eq {cls : PatronClass} : verdictOf (holdOutcome today p pickup patron title cls) =
    if ∃ h ∈ holdList title, h.patron = p.toNat then .refuse .duplicate
    else if cls.maxHolds ≤ holdsCount patron then .refuse .limitReached
    else if 24 ≤ (holdList title).length then .refuse .queueFull
    else .commit .holdPlaced [octet ((holdList title).length + 1)]
      ⟨some (patronWithHolds patron (holdsCount patron + 1)),
       some (putHolds title (holdList title ++ [⟨p.toNat, pickup.toNat, false, today, 0, 0⟩])), none⟩ := by
  rw [holdOutcome]
  split
  next held => rw [check_refused (Bool.eq_false_of_not_eq_true fun absent => holdOf_isNone_iff.mp absent held)]; rfl
  next fresh =>
  rw [check_passed (holdOf_isNone_iff.mpr fresh)]
  split
  next most => rw [check_refused (decide_eq_false (Nat.not_lt.mpr most))]; rfl
  next fewer =>
  rw [check_passed (decide_eq_true (Nat.not_le.mp fewer))]
  split
  next full => rw [check_refused (decide_eq_false (Nat.not_lt.mpr full))]; rfl
  next room =>
  rw [check_passed (decide_eq_true (Nat.not_le.mp room))]
  simp only [List.length_append]
  rfl

end

/-- Settles O43: the report of R150 with the indication of R151, and the checks of a hold, each of which brings the decision
to the next one when it passes. -/
theorem accountAndHoldDecisions : Obligations.AccountAndHoldDecisions := by
  intro r patron
  dsimp only
  refine ⟨fun b => decideAccount_waits, fun co read => ?report, fun today p pickup title => ⟨fun outside => ?_,
    fun branch expired => ?expired, fun branch current blocked => ?blocked, fun branch current unblocked => ?served⟩⟩
  case report =>
    rw [decideAccount_reports read, accountFields]
    simp only [blockedIndication_iff]
  · rw [decideHold, if_pos outside]
  all_goals rw [decideHold_checks branch, holdPatronChecks]
  case expired => rw [check_refused (decide_eq_false (Nat.not_lt.mpr expired))]; rfl
  all_goals rw [check_passed (decide_eq_true current)]
  case blocked => rw [check_refused (by rw [blocked]; rfl)]; rfl
  case served =>
    rw [check_passed (by rw [unblocked]; rfl)]
    refine ⟨fun b unread => ?_, fun blank => ?_, fun cls read => ?_⟩
    · rw [unread, read_stopped]; rfl
    · rw [blank, read_served]; rfl
    rw [read, read_served]
    dsimp only
    split
    next owed => rw [check_refused (decide_eq_false (Nat.not_lt.mpr owed))]; rfl
    next below =>
    rw [check_passed (decide_eq_true (Nat.not_le.mp below)), read_served, holdOutcome_eq]
    rfl

end Sys2Proof.Decisions

namespace Sys2Proof.Decisions

open Sys2Proof Sys2Proof.Machine

/-! ## CANCEL, SUSPEND and RESUME (R162-R166): each decision by the hold of its patron -/

section
variable {p : Key} {patron title : Image} {today requested : Nat} {h : Hold}

theorem holdOf_eq_none_iff {holds : List Hold} : holdOf p holds = none ↔ ∀ h ∈ holds, h.patron ≠ p.toNat := by
  simp [holdOf]

theorem decideCancel_absent (absent : holdOf p (holdList title) = none) :
    (decideCancel p patron title).verdict = .refuse .noSuchHold := by
  rw [decideCancel, absent]; rfl

/-- The hold leaves the list, and the patron image counts one hold less (R158, R162). -/
theorem decideCancel_held (held : holdOf p (holdList title) = some h) : (decideCancel p patron title).verdict =
    .commit .holdCancelled [] ⟨some (patronWithHolds patron (holdsCount patron - 1)),
      some (putHolds title ((holdList title).filter fun h => decide (h.patron ≠ p.toNat))), none⟩ := by
  rw [decideCancel, held]; rfl

/-- The day comes first among the checks of a SUSPEND, whatever the list holds (R163). -/
theorem decideSuspend_notLater (notLater : requested ≤ today) :
    (decideSuspend today p requested title).verdict = .refuse .badRequest := by
  rw [decideSuspend, if_pos notLater]

/-- With a later day a SUSPEND goes by the patron's hold: a WAITING one is suspended until the day asked for, but no longer
than 180 days from today, and the reply tells that day and whether it is earlier than the one asked for (R163, R164). -/
theorem decideSuspend_later (later : today < requested) : decideSuspend today p requested title =
    (holdOf p (holdList title)).elim ⟨.refuse .noSuchHold⟩ fun h =>
      if h.ready then ⟨.refuse .notSuspendable⟩
      else ⟨.commit .holdSuspended
        (beOctets 2 (min requested (today + 180)) ++ [if today + 180 < requested then 1 else 0])
        ⟨none, some (putHolds title (setSuspend p (min requested (today + 180)) (holdList title))), none⟩⟩ := by
  -- The list gets a name of its own, so that the kernel has no list to evaluate where it compares the two sides.
  obtain ⟨holds, list⟩ : ∃ holds, holdList title = holds := ⟨_, rfl⟩
  rw [decideSuspend, if_neg (Nat.not_le.mpr later), list]
  dsimp only
  cases holdOf p holds with
  | none => rfl
  | some h => rfl

theorem decideSuspend_absent (later : today < requested) (absent : holdOf p (holdList title) = none) :
    (decideSuspend today p requested title).verdict = .refuse .noSuchHold := by
  rw [decideSuspend_later later, absent, Option.elim_none]

theorem decideSuspend_ready (later : today < requested) (held : holdOf p (holdList title) = some h)
    (ready : h.ready = true) : (decideSuspend today p requested title).verdict = .refuse .notSuspendable := by
  rw [decideSuspend_later later, held, Option.elim_some, if_pos ready]

theorem decideSuspend_waiting (later : today < requested) (held : holdOf p (holdList title) = some h)
    (waiting : h.ready = false) : (decideSuspend today p requested title).verdict = .commit .holdSuspended
      (beOctets 2 (min requested (today + 180)) ++ [if today + 180 < requested then 1 else 0])
      ⟨none, some (putHolds title (setSuspend p (min requested (today + 180)) (holdList title))), none⟩ := by
  rw [decideSuspend_later later, held, Option.elim_some, if_neg (Bool.eq_false_iff.mp waiting)]

/-- A RESUME goes by the patron's hold: the suspend-until day is removed where there is one (R165, R166). The definition is
opened as a function: its applied form the kernel would compare by evaluating the hold list. -/
theorem decideResume_eq (p : Key) (title : Image) :
    decideResume p title = (holdOf p (holdList title)).elim ⟨.refuse .noSuchHold⟩ fun h =>
      if h.suspend = 0 then ⟨.succeed .holdResumed []⟩
      else ⟨.commit .holdResumed [] ⟨none, some (putHolds title (setSuspend p 0 (holdList title))), none⟩⟩ := by
  revert p title
  refine congr_fun₂ (f := decideResume) (g := fun _ _ => _) ?_
  delta decideResume
  funext p title
  dsimp only
  cases holdOf p (holdList title) with
  | none => rfl
  | some h => rfl

theorem decideResume_absent (absent : holdOf p (holdList title) = none) :
    (decideResume p title).verdict = .refuse .noSuchHold := by
  rw [decideResume_eq, absent, Option.elim_none]

/-- Without a suspend-until day there is nothing to commit (R166). -/
theorem decideResume_clear (held : holdOf p (holdList title) = some h) (clear : h.suspend = 0) :
    (decideResume p title).verdict = .succeed .holdResumed [] := by
  rw [decideResume_eq, held, Option.elim_some, if_pos clear]

/-- The suspend-until day is removed (R165). -/
theorem decideResume_suspended (held : holdOf p (holdList title) = some h) (suspended : h.suspend ≠ 0) :
    (decideResume p title).verdict =
      .commit .holdResumed [] ⟨none, some (putHolds title (setSuspend p 0 (holdList title))), none⟩ := by
  rw [decideResume_eq, held, Option.elim_some, if_neg suspended]

end

/-- Settles O44: without the patron's hold all three refuse, and with one each decision goes by that hold's mark and day. -/
theorem cancelSuspendResumeDecisions : Obligations.CancelSuspendResumeDecisions := by
  intro p patron title today requested
  refine ⟨fun others => ?absent, decideSuspend_notLater, fun h held => ?held⟩
  case absent =>
    have absent : holdOf p (holdList title) = none := holdOf_eq_none_iff.mpr others
    exact ⟨decideCancel_absent absent, decideResume_absent absent, fun later => decideSuspend_absent later absent⟩
  case held =>
    exact ⟨decideCancel_held held, fun later ready => decideSuspend_ready later held ready,
      fun later waiting => decideSuspend_waiting later held waiting, decideResume_clear held,
      decideResume_suspended held⟩

end Sys2Proof.Decisions

namespace Sys2Proof.RuleTables

open Sys2Proof Sys2Proof.Machine Sys2Proof.Safety Sys2Proof.BranchLink Sys2Proof.RecordImages

/-! ## Octets of a number, read and written again -/

/-- Octets are read as a number and written again unchanged. -/
theorem beOctets_beNat (os : List Octet) : beOctets os.length (beNat os) = os := by
  induction os with
  | nil => rfl
  | cons o os ih =>
    have low : beNat os < 256 ^ os.length := beNat_lt os
    have high : (o.toNat * 256 ^ os.length + beNat os) / 256 ^ os.length = o.toNat := by
      rw [Nat.mul_comm, Nat.mul_add_div (Nat.pow_pos (by decide)), Nat.div_eq_of_lt low, Nat.add_zero]
    have rest : (o.toNat * 256 ^ os.length + beNat os) % 256 ^ os.length = beNat os := by
      rw [Nat.mul_add_mod_self_right, Nat.mod_eq_of_lt low]
    rw [List.length_cons, beOctets, beNat, high, ← beOctets_mod, rest, ih, octet, BitVec.ofNat_toNat,
      BitVec.setWidth_eq]

/-! ## The octets of an entry (R200) -/

/-- The first octet of a calendar entry holds the marks of the first eight days, and so on (R200). -/
theorem marksOctets_eq (marks : BitVec 64) :
    marksOctets marks = (List.range 8).map fun j => marks.extractLsb' (8 * j) 8 := by
  refine List.ext_getElem (by simp [marksOctets]) fun j _ within => ?_
  have small : j < 8 := by simpa using within
  rw [List.getElem_map, List.getElem_range]
  simp only [marksOctets, List.getElem_reverse, beOctets_getElem, beOctets_length]
  apply BitVec.eq_of_toNat_eq
  rw [octet_toNat, BitVec.extractLsb'_toNat, Nat.shiftRight_eq_div_pow, Nat.pow_mul,
    show 8 - 1 - (8 - 1 - j) = j by omega]

/-- Each field of an entry in its octets, the high octet first. -/
theorem entry_octets (v : RuleEntry) : v.octets = match v with
    | .loanRule r => [octet r.renewable, octet r.loanDays, octet r.maxRenewals, octet (r.rate / 256), octet r.rate,
        octet (r.cap / 256), octet r.cap, octet r.grace]
    | .patronClass p => [octet (p.threshold / 16777216), octet (p.threshold / 65536), octet (p.threshold / 256),
        octet p.threshold, octet p.discount, octet p.maxHolds]
    | .windowBase w => [octet (w / 256), octet w]
    | .calendar marks => (List.range 8).map fun j => marks.extractLsb' (8 * j) 8 := by
  cases v with
  | calendar marks => exact marksOctets_eq marks
  | _ => simp [RuleEntry.octets, beOctets]

/-! ## Fields held within their ranges (R170, R175) -/

theorem clampTo_zero (hi n : Nat) : clampTo 0 hi n = min hi n := by simp [clampTo]

theorem clampTo_eq {lo hi : Nat} (range : lo ≤ hi) (n : Nat) : clampTo lo hi n = max lo (min hi n) := by
  rw [clampTo]; omega

theorem clampTo_below {lo hi n : Nat} (range : lo ≤ hi) (below : n ≤ hi) : clampTo lo hi n = max lo n := by
  rw [clampTo_eq range, Nat.min_eq_right below]

section
variable {b : BlockId} {values : List Octet} {e : Nat}

theorem entryOf_loanRule (lr : b.val < 4) : entryOf b e values = .loanRule
    { renewable := min 1 (natAt values 0 1), loanDays := max 1 (min 120 (natAt values 1 1)),
      maxRenewals := min 15 (natAt values 2 1), rate := min 2500 (natAt values 3 2),
      cap := natAt values 5 2, grace := min 14 (natAt values 7 1) } := by
  simp only [entryOf, if_pos lr, clampTo_zero, clampTo_eq (lo := 1) (hi := 120) (by decide)]

theorem entryOf_calendar (low : 4 ≤ b.val) (high : b.val < 12) : entryOf b e values = .calendar (marksOf values) := by
  rw [entryOf, if_neg (Nat.not_lt.mpr low), if_pos high]

theorem entryOf_patronClass (index : e < 16) : entryOf 12 e values = .patronClass
    { threshold := max 1 (min 999999 (natAt values 0 4)), discount := min 100 (natAt values 4 1),
      maxHolds := min 50 (natAt values 5 1) } := by
  have outside : ¬ (12 : BlockId).val < 4 ∧ ¬ (12 : BlockId).val < 12 := by decide
  simp only [entryOf, if_neg outside.1, if_neg outside.2, if_neg (Nat.ne_of_lt index), clampTo_zero,
    clampTo_eq (lo := 1) (hi := 999999) (by decide)]

/-- A word never lies above the window base's range, so 0 alone is replaced (R175). -/
theorem entryOf_windowBase : entryOf 12 16 values = .windowBase (max 1 (natAt values 0 2)) :=
  congrArg RuleEntry.windowBase
    (clampTo_below (by decide) (Nat.le_of_lt_succ (natAt_lt values 0 2)))

/-- The marks written are octet for octet the values given (R175). -/
theorem marksOctets_marksOf (size : values.length = 8) : marksOctets (marksOf values) = values := by
  have whole : octetsAt values 0 8 = values := by
    rw [octetsAt_inside (by omega), List.drop_zero, List.take_of_length_le (by omega)]
  have length : values.reverse.length = 8 := by rw [List.length_reverse, size]
  have fits : beNat values.reverse < 2 ^ 64 := (beNat_lt values.reverse).trans_eq (by rw [length]; norm_num)
  rw [marksOctets, marksOf, whole, BitVec.toNat_ofNat, Nat.mod_eq_of_lt fits]
  conv_lhs => rw [← length]
  rw [beOctets_beNat, List.reverse_reverse]

/-- Day position `j` is bit `j mod 8` of octet `j / 8` (R200). -/
theorem marksOf_getLsbD (size : values.length = 8) {j : Nat} (day : j < 64) :
    (marksOf values).getLsbD j = (values.getD (j / 8) 0).getLsbD (j % 8) := by
  have place : j / 8 < 8 := by omega
  conv_rhs => rw [← marksOctets_marksOf size, marksOctets_eq]
  rw [List.getD_eq_getElem _ _ (by simpa using place), List.getElem_map, List.getElem_range,
    BitVec.getLsbD_extractLsb', decide_eq_true (Nat.mod_lt j (by decide)), Bool.true_and, Nat.div_add_mod]

end

/-- Settles O49: each kind of block has its own layout; a field that cannot leave its range is written as given. -/
theorem writesAreClamped : Obligations.WritesAreClamped := by
  intro values
  refine ⟨fun b lr _ => ?loanRule, fun b low high size e => ?calendar, fun _ e index => ?patronClass, fun _ => ?base⟩
  case loanRule => exact ⟨_, fun e => ⟨entryOf_loanRule lr, rfl, rfl, rfl, rfl, rfl, rfl⟩⟩
  case calendar =>
    have entry : entryOf b e values = .calendar (marksOf values) := entryOf_calendar low high
    exact ⟨marksOf values, entry, entry ▸ marksOctets_marksOf size, fun j day => marksOf_getLsbD size day⟩
  case patronClass => exact ⟨_, entryOf_patronClass index, rfl, rfl, rfl⟩
  case base => exact entryOf_windowBase

end Sys2Proof.RuleTables

namespace Sys2Proof.RuleTables

open Sys2Proof Sys2Proof.Machine Sys2Proof.Safety Sys2Proof.KioskLanes

/-! ## The operands of the table commands (R169, R172, R202) -/

theorem blockOf_some {o : Octet} {b : BlockId} (is : o.toNat = b.val) : blockOf o = some b := by
  simp [blockOf, is]

theorem blockOf_none {o : Octet} (beyond : 13 ≤ o.toNat) : blockOf o = none := dif_neg (Nat.not_lt.mpr beyond)

/-- The PC block is block 12. -/
theorem eq_pcBlock_iff (b : BlockId) : b = pcBlock ↔ b.val = 12 := Fin.ext_iff

theorem entryCount_eq (b : BlockId) : entryCount b = if b.val = 12 then 17 else 64 := by
  simp only [entryCount, eq_pcBlock_iff]

theorem entrySize_eq (b : BlockId) (e : Nat) :
    entrySize b e = if b.val = 12 then (if e = 16 then 2 else 6) else 8 := by
  simp only [entrySize, eq_pcBlock_iff]

/-! ## The table commands as frames UM takes (R172, R185) -/

section
variable {s : State} (h : Manageable s) (seq block entry : Octet)
include h

theorem exec_tableClear : exec (.tableClear seq block) s = .next (takeTableClear seq block (counted s)) :=
  congrArg Host.Outcome.next (live_arriveMgmt h _ rfl (Nat.le_of_ble_eq_true rfl) (Nat.le_of_ble_eq_true rfl))

theorem exec_tableWrite {values : List Octet} (fits : values.length ≤ 476) :
    exec (.tableWrite seq block entry values) s = .next (takeTableWrite seq block entry values (counted s)) :=
  congrArg Host.Outcome.next (live_arriveMgmt h _ rfl (Nat.le_add_left 2 (values.length + 2))
    (Nat.add_le_add_right fits 4))

theorem exec_tableClose : exec (.tableClose seq block) s = .next (takeTableClose seq block (counted s)) :=
  congrArg Host.Outcome.next (live_arriveMgmt h _ rfl (Nat.le_of_ble_eq_true rfl) (Nat.le_of_ble_eq_true rfl))

theorem exec_tableAbort : exec (.tableAbort seq) s = .next (takeTableAbort seq (counted s)) :=
  congrArg Host.Outcome.next (live_arriveMgmt h _ rfl (Nat.le_of_ble_eq_true rfl) (Nat.le_of_ble_eq_true rfl))

theorem exec_tableRead : exec (.tableRead seq block entry) s = .next (takeTableRead seq block entry (counted s)) :=
  congrArg Host.Outcome.next (live_arriveMgmt h _ rfl (Nat.le_of_ble_eq_true rfl) (Nat.le_of_ble_eq_true rfl))

theorem exec_tableStatusClear : exec (.tableStatusClear seq) s = .next (takeTableStatusClear seq (counted s)) :=
  congrArg Host.Outcome.next (live_arriveMgmt h _ rfl (Nat.le_of_ble_eq_true rfl) (Nat.le_of_ble_eq_true rfl))

end

/-- The link and the counters are no part of the store. -/
@[simp] theorem rs_counted (s : State) : (counted s).rs = s.rs := rfl

/-! ## The tests a command fails, and the operation it starts (R172-R176, R180) -/

/-- The store is READY and no error flag is set: what TABLE_WRITE and TABLE_CLOSE ask for first (R174, R176). -/
structure Unhindered (r : RuleStore) : Prop where
  ready : r.operation.isSome = false
  unflagged : r.flagged = false

theorem flagged_iff (r : RuleStore) : r.flagged = true ↔ r.writeError = true ∨ r.sequenceError = true := by
  simp [RuleStore.flagged]

theorem Unhindered.of_fields {r : RuleStore} (ready : r.operation = none) (write : r.writeError = false)
    (sequence : r.sequenceError = false) : Unhindered r :=
  ⟨by rw [ready]; rfl, by simp [RuleStore.flagged, write, sequence]⟩

/-- A block that is BLANK or PARTIAL can be written and closed (R174, R176). -/
theorem not_closed_of_open {x : Content} (opened : x = .blank ∨ x = .partly) : ¬ (x = .valid ∨ x = .incomplete) := by
  rcases opened with rfl | rfl <;> decide

section
variable (seq : Octet) {block : Octet} {b : BlockId} {s : State}

theorem takeTableClear_unknown (beyond : 13 ≤ block.toNat) :
    takeTableClear seq block s = answer seq 0x0B .badValue [] s := by
  rw [takeTableClear, blockOf_none beyond]; rfl

theorem takeTableClear_eq (is : block.toNat = b.val) : takeTableClear seq block s =
    if s.rs.operation.isSome then answer seq 0x0B .busy [] s else operating s b ⟨.clear, b, seq, 0x0B⟩ := by
  rw [takeTableClear, blockOf_some is]; rfl

section Close

theorem takeTableClose_unknown (beyond : 13 ≤ block.toNat) :
    takeTableClose seq block s = answer seq 0x0D .badValue [] s := by
  rw [takeTableClose, blockOf_none beyond]; rfl

variable (is : block.toNat = b.val)
include is

theorem takeTableClose_busy (busy : s.rs.operation.isSome = true) :
    takeTableClose seq block s = answer seq 0x0D .busy [] s := by
  rw [takeTableClose, blockOf_some is]; exact if_pos busy

theorem takeTableClose_flagged (ready : s.rs.operation.isSome = false) (flagged : s.rs.flagged = true) :
    takeTableClose seq block s = answer seq 0x0D .errorPending [] s := by
  rw [takeTableClose, blockOf_some is]
  exact (if_neg (Bool.eq_false_iff.mp ready)).trans (if_pos flagged)

theorem takeTableClose_unhindered (free : Unhindered s.rs) : takeTableClose seq block s =
    if (s.rs.block b).content = .valid ∨ (s.rs.block b).content = .incomplete then sequenceError seq 0x0D s
    else operating s b ⟨.close, b, seq, 0x0D⟩ := by
  rw [takeTableClose, blockOf_some is]
  exact (if_neg (Bool.eq_false_iff.mp free.ready)).trans (if_neg (Bool.eq_false_iff.mp free.unflagged))

end Close

section Write
variable {entry : Octet} {values : List Octet}

theorem takeTableWrite_unknown (beyond : 13 ≤ block.toNat) :
    takeTableWrite seq block entry values s = answer seq 0x0C .badValue [] s := by
  rw [takeTableWrite, blockOf_none beyond]; rfl

variable (is : block.toNat = b.val)
include is

theorem takeTableWrite_missized (size : values.length ≠ entrySize b entry.toNat) :
    takeTableWrite seq block entry values s = answer seq 0x0C .badValue [] s := by
  rw [takeTableWrite, blockOf_some is]; exact if_pos size

variable (size : values.length = entrySize b entry.toNat)
include size

theorem takeTableWrite_busy (busy : s.rs.operation.isSome = true) :
    takeTableWrite seq block entry values s = answer seq 0x0C .busy [] s := by
  rw [takeTableWrite, blockOf_some is]
  exact (if_neg (not_not.mpr size)).trans (if_pos busy)

theorem takeTableWrite_flagged (ready : s.rs.operation.isSome = false) (flagged : s.rs.flagged = true) :
    takeTableWrite seq block entry values s = answer seq 0x0C .errorPending [] s := by
  rw [takeTableWrite, blockOf_some is]
  exact (if_neg (not_not.mpr size)).trans ((if_neg (Bool.eq_false_iff.mp ready)).trans (if_pos flagged))

/-- Checks 2 to 4 of R174. -/
theorem takeTableWrite_unhindered (free : Unhindered s.rs) : takeTableWrite seq block entry values s =
    if (s.rs.block b).content = .valid ∨ (s.rs.block b).content = .incomplete then sequenceError seq 0x0C s
    else if entryCount b ≤ entry.toNat then sequenceError seq 0x0C s
    else if ((s.rs.block b).entries.getD entry.toNat none).isSome then
      answer seq 0x0C .writeError [] (s.mapRs fun r => { r with writeError := true })
    else operating s b ⟨.write entry.toNat values, b, seq, 0x0C⟩ := by
  rw [takeTableWrite, blockOf_some is]
  exact (if_neg (not_not.mpr size)).trans
    ((if_neg (Bool.eq_false_iff.mp free.ready)).trans (if_neg (Bool.eq_false_iff.mp free.unflagged)))

end Write

end

/-- Settles O46: the block, the entry's size, the running operation, the flags, and then the checks of R174 and R176. -/
theorem tableCommandsStartOrRefuse : Obligations.TableCommandsStartOrRefuse := by
  intro s seq block entry values h fits
  rw [exec_tableClear h, exec_tableWrite h seq block entry fits, exec_tableClose h]
  refine ⟨fun beyond => ?unknown, fun b is => ?_⟩
  case unknown =>
    rw [takeTableClear_unknown seq beyond, takeTableWrite_unknown seq beyond, takeTableClose_unknown seq beyond]
    exact ⟨rfl, rfl, rfl⟩
  dsimp only
  rw [← entrySize_eq, ← entryCount_eq, takeTableClear_eq seq is]
  refine ⟨fun size => ?missized, fun busy => ?busy, fun ready => ⟨?clear, fun flags => ?flagged, fun write sequence => ?_⟩⟩
  case missized => rw [takeTableWrite_missized seq is size]
  case busy =>
    have busy : (counted s).rs.operation.isSome = true := Option.isSome_iff_ne_none.mpr busy
    exact ⟨congrArg _ (if_pos busy), congrArg _ (takeTableClose_busy seq is busy),
      fun size => congrArg _ (takeTableWrite_busy seq is size busy)⟩
  case clear => rw [rs_counted, ready]; rfl
  case flagged =>
    have ready : (counted s).rs.operation.isSome = false := by rw [rs_counted, ready]; rfl
    have flagged : (counted s).rs.flagged = true := (flagged_iff _).mpr flags
    exact ⟨congrArg _ (takeTableClose_flagged seq is ready flagged),
      fun size => congrArg _ (takeTableWrite_flagged seq is size ready flagged)⟩
  have free : Unhindered (counted s).rs := .of_fields ready write sequence
  rw [takeTableClose_unhindered seq is free]
  refine ⟨fun closed => ⟨congrArg _ (if_pos closed), fun size => ?closed⟩, fun opened => ?_⟩
  case closed => rw [takeTableWrite_unhindered seq is size free]; exact congrArg _ (if_pos closed)
  have opened := not_closed_of_open opened
  refine ⟨congrArg _ (if_neg opened), fun size => ?_⟩
  rw [takeTableWrite_unhindered seq is size free, rs_counted, if_neg opened]
  refine ⟨fun beyond => congrArg _ (if_pos beyond), fun within => ?_⟩
  rw [if_neg (Nat.not_le.mpr within)]
  exact ⟨fun written => congrArg _ (if_pos (Option.isSome_iff_ne_none.mpr written)),
    fun blank => by rw [blank]; rfl⟩

end Sys2Proof.RuleTables

namespace Sys2Proof.RuleTables

open Sys2Proof Sys2Proof.Machine Sys2Proof.Safety Sys2Proof.KioskLanes

/-! ## TABLE_ABORT and TABLE_STATUS_CLEAR (R177, R180) -/

section
variable (seq : Octet) {s : State}

theorem takeTableAbort_ready (ready : s.rs.operation = none) :
    takeTableAbort seq s = answer seq 0x0E .nothingToAbort [] s := by
  simp only [takeTableAbort, ready]; rfl

/-- The command that started the operation is answered first (R177). -/
theorem takeTableAbort_busy {o : Operation} (busy : s.rs.operation = some o) : takeTableAbort seq s =
    answer seq 0x0E .done [] (answer o.seq o.command .aborted [] { s with rs := { s.rs with operation := none } }) := by
  simp only [takeTableAbort, busy]; rfl

theorem takeTableStatusClear_ready (ready : s.rs.operation = none) : takeTableStatusClear seq s =
    answer seq 0x10 .done [] { s with rs := { s.rs with writeError := false, sequenceError := false } } := by
  rw [takeTableStatusClear, ready]; rfl

theorem takeTableStatusClear_busy {o : Operation} (busy : s.rs.operation = some o) :
    takeTableStatusClear seq s = answer seq 0x10 .busy [] s := by
  rw [takeTableStatusClear, busy]; rfl

end

/-! ## TABLE_READ (R179, R202) -/

section
variable (seq : Octet) {block entry : Octet} {b : BlockId} {s : State}

theorem takeTableRead_unknown (beyond : 13 ≤ block.toNat) :
    takeTableRead seq block entry s = answer seq 0x0F .badValue [] s := by
  rw [takeTableRead, blockOf_none beyond]; rfl

variable (is : block.toNat = b.val)
include is

theorem takeTableRead_beyond (beyond : entryCount b ≤ entry.toNat) :
    takeTableRead seq block entry s = answer seq 0x0F .badValue [] s := by
  rw [takeTableRead, blockOf_some is]; exact if_pos beyond

theorem takeTableRead_within (within : entry.toNat < entryCount b) :
    takeTableRead seq block entry s = answer seq 0x0F .done (tableReadFields s.rs b entry.toNat) s := by
  rw [takeTableRead, blockOf_some is]; exact if_neg (Nat.not_le.mpr within)

end

/-- The octet that tells whether the block is under the running operation (R179). -/
def underOctet (r : RuleStore) (b : BlockId) : Octet :=
  if r.operation.any (fun o => decide (o.block = b)) then 1 else 0

theorem underOctet_eq (r : RuleStore) (b : BlockId) [Decidable (∃ o, r.operation = some o ∧ o.block = b)] :
    underOctet r b = if ∃ o, r.operation = some o ∧ o.block = b then 1 else 0 :=
  if_congr (by simp [Option.any_eq_true]) rfl rfl

/-- A read answers the block's state, whether it is under operation, and the entry, unless the block is INCOMPLETE: an entry
that is blank or not reported reads 0 (R179, R202). -/
theorem tableReadFields_eq (r : RuleStore) (b : BlockId) (e : Nat) : tableReadFields r b e =
    (r.block b).content.code :: underOctet r b ::
      if (r.block b).content = .incomplete then 2 :: List.replicate (entrySize b e) 0
      else ((r.block b).entries.getD e none).elim (0 :: List.replicate (entrySize b e) 0) fun v => 1 :: v.octets := by
  cases content : (r.block b).content with
  | incomplete => simp only [tableReadFields, content]; rfl
  | _ => cases entry : (r.block b).entries.getD e none <;> simp only [tableReadFields, content, entry] <;> rfl

section
variable {r : RuleStore} {b : BlockId} {e : Nat}

theorem tableReadFields_incomplete (incomplete : (r.block b).content = .incomplete) :
    tableReadFields r b e = [3, underOctet r b, 2] ++ List.replicate (entrySize b e) 0 := by
  rw [tableReadFields_eq, if_pos incomplete, incomplete]; rfl

variable (reported : (r.block b).content ≠ .incomplete)
include reported

theorem tableReadFields_blank (blank : (r.block b).entries.getD e none = none) : tableReadFields r b e =
    [(r.block b).content.code, underOctet r b, 0] ++ List.replicate (entrySize b e) 0 := by
  rw [tableReadFields_eq, if_neg reported, blank]; rfl

theorem tableReadFields_written {v : RuleEntry} (written : (r.block b).entries.getD e none = some v) :
    tableReadFields r b e = [(r.block b).content.code, underOctet r b, 1] ++ v.octets := by
  rw [tableReadFields_eq, if_neg reported, written]; rfl

end

/-- Settles O47: the layouts, then each command by whether the store is BUSY, and a read by its block's state and entry. -/
theorem tableAbortReadStatus : Obligations.TableAbortReadStatus := by
  refine ⟨fun v => entry_octets v, fun s seq block entry h => ?_⟩
  rw [exec_tableAbort h, exec_tableStatusClear h, exec_tableRead h]
  refine ⟨fun ready => ?ready, fun o busy => ?busy, fun beyond => ?unknown, fun b is => ?read⟩
  case ready =>
    exact ⟨congrArg _ (takeTableAbort_ready seq (s := counted s) ready),
      congrArg _ (takeTableStatusClear_ready seq (s := counted s) ready)⟩
  case busy =>
    exact ⟨congrArg _ (takeTableAbort_busy seq (s := counted s) busy),
      congrArg _ (takeTableStatusClear_busy seq (s := counted s) busy)⟩
  case unknown => rw [takeTableRead_unknown seq beyond]
  case read =>
    dsimp only
    rw [← entrySize_eq, ← entryCount_eq, ← underOctet_eq]
    refine ⟨fun beyond => by rw [takeTableRead_beyond seq is beyond], fun within => ?_⟩
    rw [takeTableRead_within seq is within, rs_counted]
    exact ⟨fun incomplete => by rw [tableReadFields_incomplete incomplete], fun reported =>
      ⟨fun blank => by rw [tableReadFields_blank reported blank]; rfl,
        fun v written => by rw [tableReadFields_written reported written]; rfl⟩⟩

end Sys2Proof.RuleTables

namespace Sys2Proof.RuleTables

open Sys2Proof Sys2Proof.Machine Sys2Proof.Safety Sys2Proof.KioskLanes Sys2Proof.RecordCache

/-! ## What an answer and a change of transactions leave alone (R140, R185) -/

/-- A management reply changes UM and the link alone, and goes by these alone (R185). -/
theorem answer_frame (q c : Octet) (r : ResultCode) (fs : List Octet) {s t : State} (um : t.um = s.um)
    (bli : t.bli = s.bli) :
    answer q c r fs t = { t with um := (answer q c r fs s).um, bli := (answer q c r fs s).bli } := by
  obtain ⟨sameUm, sameBli⟩ := answer_um_bli q c r fs um bli
  rw [← sameUm, ← sameBli, answer, pumpReplies]
  split <;> rfl

/-- A change of some contexts' transactions changes dispatch alone. -/
theorem foldl_mapTxn_frame (f : Txn → Txn) (ws : List CtxId) (s : State) :
    ws.foldl (fun s w => s.mapTxn w f) s = { s with dct := (ws.foldl (fun s w => s.mapTxn w f) s).dct } := by
  induction ws generalizing s with
  | nil => rfl
  | cons w ws ih => rw [List.foldl_cons, ih]; rfl

/-- The contexts of a list are in no rule wait once it is cleared in each. -/
theorem ruleWait_foldl_cleared (ws : List CtxId) (s : State) {c : CtxId} (mem : c ∈ ws) :
    ((ws.foldl (fun s w => s.mapTxn w fun t => { t with ruleWait := none }) s).txn c).bind Txn.ruleWait = none := by
  induction ws generalizing s with
  | nil => cases mem
  | cons w ws ih =>
    rw [List.foldl_cons]
    by_cases later : c ∈ ws
    · exact ih _ later
    · obtain rfl : c = w := (List.mem_cons.mp mem).resolve_right later
      rw [foldl_mapTxn_txn _ ws _ c later, State.txn_mapTxn]
      cases s.txn c <;> rfl

/-! ## A block becomes available (R140, R181) -/

section
variable (b : BlockId) (s : State)

/-- The contexts in a rule wait on a block, in the order in which they began to wait. -/
def waitingFor : List CtxId := s.au.waits.filter fun c => decide ((s.txn c).bind Txn.ruleWait = some b)

/-- Dispatch and AU alone are told. -/
theorem blockAvailable_frame : blockAvailable b s =
    { s with dct := (blockAvailable b s).dct, au := (blockAvailable b s).au } :=
  congrArg (fun t : State => { t with au := (blockAvailable b s).au })
    (foldl_mapTxn_frame (fun t => { t with ruleWait := none }) (waitingFor b s) s)

theorem blockAvailable_list : (blockAvailable b s).au.list = s.au.list ++ waitingFor b s :=
  congrArg (fun a : Adjudicator => a.list ++ waitingFor b s)
    (foldl_mapTxn_au (fun t => { t with ruleWait := none }) (waitingFor b s) s)

theorem blockAvailable_waits : (blockAvailable b s).au.waits =
    s.au.waits.filter fun c => decide ((s.txn c).bind Txn.ruleWait ≠ some b) := by
  simp only [decide_not]
  exact congrArg (fun a : Adjudicator => a.waits.filter fun c => !decide ((s.txn c).bind Txn.ruleWait = some b))
    (foldl_mapTxn_au (fun t => { t with ruleWait := none }) (waitingFor b s) s)

theorem blockAvailable_wakes {c : CtxId} (waits : c ∈ s.au.waits) (on : (s.txn c).bind Txn.ruleWait = some b) :
    ((blockAvailable b s).txn c).bind Txn.ruleWait = none :=
  ruleWait_foldl_cleared (waitingFor b s) s (List.mem_filter.mpr ⟨waits, decide_eq_true on⟩)

end

/-! ## The completions (R173, R174, R176) -/

section
variable {s : State}

theorem exec_clearComplete (power : s.powered = true) : exec .clearComplete s = .next (clearCompletes s) :=
  congrArg Host.Outcome.next (live_powered power _)

theorem exec_writeComplete (power : s.powered = true) : exec .writeComplete s = .next (writeCompletes s) :=
  congrArg Host.Outcome.next (live_powered power _)

theorem exec_closeComplete (power : s.powered = true) : exec .closeComplete s = .next (closeCompletes s) :=
  congrArg Host.Outcome.next (live_powered power _)

/-- The store READY with one block in the state that its operation gives. -/
def completed (s : State) (b : BlockId) (x : Block) : State := s.mapRs fun r => r.finish b x

variable {b : BlockId} {seq command : Octet}

theorem clearCompletes_running (running : s.rs.operation = some ⟨.clear, b, seq, command⟩) : clearCompletes s =
    answer seq command .done [] (completed s b ⟨.blank, List.replicate (entryCount b) none⟩) := by
  simp only [clearCompletes, running]; rfl

theorem writeCompletes_running {e : Nat} {values : List Octet}
    (running : s.rs.operation = some ⟨.write e values, b, seq, command⟩) : writeCompletes s =
      answer seq command (if (entryOf b e values).octets = values then .done else .clamped) []
        (completed s b ⟨.partly, (s.rs.block b).entries.set e (some (entryOf b e values))⟩) := by
  simp only [writeCompletes, running, wasClamped, decide_eq_true_eq, ne_eq, ite_not]; rfl

/-- What a CLOSE makes of the state before AU is told: the block VALID with its entries, the command answered (R176). -/
def closed (s : State) (b : BlockId) (seq command : Octet) : State :=
  { completed s b ⟨.valid, (s.rs.block b).entries⟩ with
    um := (answer seq command .done [] s).um
    bli := (answer seq command .done [] s).bli }

theorem closeCompletes_running (running : s.rs.operation = some ⟨.close, b, seq, command⟩) :
    closeCompletes s = blockAvailable b (closed s b seq command) := by
  simp only [closeCompletes, running]
  exact congrArg (blockAvailable b) (answer_frame seq command .done [] rfl rfl)

/-- A completion of no CLEAR changes nothing, and so for the other two. -/
theorem clearCompletes_idle (other : ∀ o, s.rs.operation = some o → o.kind ≠ .clear) : clearCompletes s = s := by
  unfold clearCompletes; split
  · next running => exact absurd rfl (other _ running)
  · rfl

theorem writeCompletes_idle (other : ∀ o e v, s.rs.operation = some o → o.kind ≠ .write e v) :
    writeCompletes s = s := by
  unfold writeCompletes; split
  · next running => exact absurd rfl (other _ _ _ running)
  · rfl

theorem closeCompletes_idle (other : ∀ o, s.rs.operation = some o → o.kind ≠ .close) : closeCompletes s = s := by
  unfold closeCompletes; split
  · next running => exact absurd rfl (other _ running)
  · rfl

end

/-- Settles O48: each completion by its operation; a CLOSE tells AU, which touches nothing of the store or of the answer. -/
theorem storeOperationsComplete : Obligations.StoreOperationsComplete := by
  intro s b seq command power
  dsimp only
  rw [exec_clearComplete power, exec_writeComplete power, exec_closeComplete power, ← entryCount_eq]
  refine ⟨fun running => congrArg _ (clearCompletes_running running),
    fun e values running => congrArg _ (writeCompletes_running running), fun running => ?close,
    fun other => congrArg _ (clearCompletes_idle other), fun other => congrArg _ (closeCompletes_idle other),
    fun other => congrArg _ (writeCompletes_idle other)⟩
  case close =>
    refine ⟨_, congrArg _ (closeCompletes_running running), ?_⟩
    have told := blockAvailable_frame b (closed s b seq command)
    exact ⟨(congrArg State.rs told :), blockAvailable_list b _, blockAvailable_waits b _,
      fun c waits on => blockAvailable_wakes b _ waits on, (congrArg State.um told :), (congrArg State.bli told :),
      (congrArg State.lanes told :), (congrArg State.rc told :)⟩

end Sys2Proof.RuleTables

namespace Sys2Proof.UnitManagement

open Sys2Proof Sys2Proof.Machine Sys2Proof.Safety Sys2Proof.KioskLanes

/-! ## Replies held and owed (R185) -/

/-- A management reply is owed by UM or by the store, so what leaves both alone leaves it owed. -/
theorem owed_of_outside {s t : State} (h : t.outside = s.outside) : repliesOwed t = repliesOwed s := by
  have um : t.um = s.um := congrArg Outside.um h
  have rs : t.rs = s.rs := congrArg Outside.rs h
  rw [repliesOwed, repliesOwed, um, rs]

theorem owed_le_of_outside {s t : State} (h : t.outside = s.outside) : repliesOwed t ≤ repliesOwed s :=
  (owed_of_outside h).le

/-- A reply that is offered to the line leaves the list. -/
theorem owed_pumpReplies_le (s : State) : repliesOwed (pumpReplies s) ≤ repliesOwed s := by
  unfold pumpReplies
  split
  · next r rs _ some =>
    rw [owed_of_outside (outside_sendFrame _ _)]
    simp only [repliesOwed, some, List.length_cons]
    omega
  · exact Nat.le_refl _

/-- A reply is one more, whether it is held or offered to the line at once. -/
theorem owed_answer_le (q c : Octet) (r : ResultCode) (fs : List Octet) {t : State} {n : Nat}
    (h : repliesOwed t ≤ n) : repliesOwed (answer q c r fs t) ≤ n + 1 := by
  refine (owed_pumpReplies_le _).trans (le_trans (Nat.le_of_eq ?_) (Nat.succ_le_succ h))
  simp only [repliesOwed, List.length_append, List.length_singleton]
  omega

/-- A reply to what was owed already adds nothing. -/
theorem owed_answer_of_owed (q c : Octet) (r : ResultCode) (fs : List Octet) {t : State} {n : Nat}
    (h : repliesOwed t + 1 = n) : repliesOwed (answer q c r fs t) ≤ n :=
  h ▸ owed_answer_le q c r fs (Nat.le_refl _)

/-- The QUIESCE that was pending is owed no longer. -/
theorem owed_quiesceEnds {s : State} {q : Octet} (pending : s.um.pendingQuiesce = some q) (v : Service) :
    repliesOwed { s with um := { s.um with service := v, pendingQuiesce := none } } + 1 = repliesOwed s := by
  simp [repliesOwed, pending]

/-- The operation that ran is owed no longer. -/
theorem owed_operationEnds {s : State} {o : Operation} (running : s.rs.operation = some o) {r : RuleStore}
    (ready : r.operation = none) : repliesOwed { s with rs := r } + 1 = repliesOwed s := by
  simp only [repliesOwed, running, ready, Option.toList_some, Option.toList_none, List.length_singleton,
    List.length_nil]
  omega

/-- A unit that becomes QUIESCED answers the QUIESCE that was pending, and no other. -/
theorem owed_settleQuiesce_le (s : State) : repliesOwed (settleQuiesce s) ≤ repliesOwed s := by
  unfold settleQuiesce
  split
  · dsimp only; split
    · next q pending => exact owed_answer_of_owed _ _ _ _ (owed_quiesceEnds pending .quiesced)
    · next free => simp [repliesOwed, free]
  · exact Nat.le_refl _

/-- Whatever an event sets off, it ends with no more replies owed. -/
theorem owed_settle_le {s : State} {r : State × List Task} (h : r.1.outside = s.outside) :
    repliesOwed (settle r) ≤ repliesOwed s :=
  (owed_settleQuiesce_le _).trans (owed_le_of_outside ((outside_runTasks _ _ _).trans h))

/-! ## Fills and notices (R77, R88-R103) -/

section
variable (s : State)

theorem owed_takeSegment_le (tag : Tag) (kind : Octet) (key : Key) (v : Version) (index flags : Octet)
    (data : List Octet) : repliesOwed (takeSegment tag kind key v index flags data s) ≤ repliesOwed s := by
  unfold takeSegment
  split
  · exact owed_le_of_outside rfl
  split
  · exact owed_le_of_outside rfl
  split
  · exact owed_le_of_outside (outside_restartFill ..)
  split
  · dsimp only; split
    · exact owed_le_of_outside (by simp)
    · exact owed_le_of_outside rfl
  dsimp only; split
  · exact owed_settle_le (by simp)
  split
  · exact owed_le_of_outside (by simp)
  · exact owed_le_of_outside (by simp)

theorem owed_takeAbsent_le (tag : Tag) : repliesOwed (takeAbsent tag s) ≤ repliesOwed s := by
  unfold takeAbsent; repeat' split
  · exact owed_settle_le (outside_failFill ..)
  · exact owed_le_of_outside rfl
  · exact owed_le_of_outside rfl

theorem owed_takeDefer_le (tag : Tag) (code : Octet) : repliesOwed (takeDefer tag code s) ≤ repliesOwed s := by
  unfold takeDefer; repeat' split
  · exact owed_le_of_outside rfl
  · exact owed_settle_le (outside_failFill ..)
  · exact owed_le_of_outside (outside_setFill ..)
  · exact owed_le_of_outside rfl

theorem owed_takeInvalidate_le (kind : Octet) (key : Key) (v : Version) :
    repliesOwed (takeInvalidate kind key v s) ≤ repliesOwed s := by
  unfold takeInvalidate; repeat' split
  · exact Nat.le_refl _
  · exact Nat.le_refl _
  · exact owed_settle_le (by simp)

theorem owed_endDelay_le (i : SlotId) : repliesOwed (endDelay i s) ≤ repliesOwed s := by
  unfold endDelay; repeat' split
  · exact owed_le_of_outside (outside_restartFill ..)
  · exact Nat.le_refl _
  · exact Nat.le_refl _

theorem owed_fetchTimerOut_le (i : SlotId) : repliesOwed (fetchTimerOut i s) ≤ repliesOwed s := by
  unfold fetchTimerOut; repeat' split
  · exact owed_settle_le (outside_failFill ..)
  · exact Nat.le_refl _
  · exact Nat.le_refl _

/-! ## Commits, decisions and the end of a transmission (R33, R55, R111-R115, R137) -/

theorem owed_takeResult_le (tag : Tag) (attempt outcome : Octet) (vs : List Version) :
    repliesOwed (takeResult tag attempt outcome vs s) ≤ repliesOwed s := by
  unfold takeResult
  split
  · exact owed_le_of_outside rfl
  dsimp only; split
  · exact owed_settle_le (by simp)
  · exact owed_settle_le (by simp)
  · exact owed_settle_le (by simp)

theorem owed_commitTimerOut_le (c : CtxId) : repliesOwed (commitTimerOut c s) ≤ repliesOwed s := by
  unfold commitTimerOut; repeat' split
  · exact owed_settle_le (by simp)
  all_goals exact Nat.le_refl _

theorem owed_deadlineFalls_le (c : CtxId) : repliesOwed (deadlineFalls c s) ≤ repliesOwed s := by
  unfold deadlineFalls; repeat' split
  · exact Nat.le_refl _
  · exact owed_settle_le (outside_endCtx ..)
  · exact owed_settle_le (outside_endCtx ..)
  · exact owed_le_of_outside rfl

theorem owed_applyDecision_le (c : CtxId) (x : Txn) (d : Decision) :
    repliesOwed (applyDecision c x d s) ≤ repliesOwed s := by
  unfold applyDecision; dsimp only; split
  · exact owed_settle_le (by simp)
  · exact owed_settle_le (by simp)
  · exact owed_le_of_outside (by simp)
  · exact owed_le_of_outside (by simp)

theorem owed_takeDecision_le (f : CtxId → Txn → State → Option Decision) :
    repliesOwed (takeDecision f s) ≤ repliesOwed s := by
  unfold takeDecision; repeat' split
  · exact Nat.le_refl _
  · exact Nat.le_refl _
  · exact Nat.le_refl _
  · exact owed_applyDecision_le ..

/-- The end of a MGMT_REPLY can bring the next one from the list to the line; no other frame touches the list. -/
theorem owed_frameSent_le (f : Frame) : repliesOwed (frameSent f s) ≤ repliesOwed s := by
  cases f with
  | relayUp | unitStarted => exact Nat.le_refl _
  | mgmtReply => exact owed_pumpReplies_le _
  | update c => unfold frameSent; dsimp only; split <;> exact owed_le_of_outside (by simp)
  | fetch i =>
    unfold frameSent; dsimp only; repeat' split
    · exact owed_le_of_outside (outside_fetchDue ..)
    · exact owed_le_of_outside rfl
    · exact owed_le_of_outside rfl

theorem owed_endFrame_le : repliesOwed (endFrame s) ≤ repliesOwed s := by
  unfold endFrame; dsimp only; split
  · exact Nat.le_refl _
  · exact owed_frameSent_le ..

/-! ## Lanes and dispatch (R4, R5, R10, R14, R19, R40) -/

theorem owed_laneAbort_le (i : LaneId) (f : Lane → Lane) : repliesOwed (laneAbort i f s) ≤ repliesOwed s :=
  owed_settle_le (s := s.mapLane i Lane.abort) (outside_abortWhere ..)

theorem owed_dispatch_le (i : LaneId) (d : DropId) (body : List Octet) :
    repliesOwed (dispatch i d body s) ≤ repliesOwed s := by
  unfold dispatch; dsimp only; repeat' split
  · exact owed_le_of_outside (outside_offerRelay ..)
  · exact owed_le_of_outside (outside_offerReply ..)
  · exact owed_le_of_outside (outside_offerReply ..)
  · exact owed_settle_le rfl

theorem owed_assembleCharacter_le (i : LaneId) (d : DropId) (c : LaneChar) :
    repliesOwed (assembleCharacter i d c s) ≤ repliesOwed s := by
  unfold assembleCharacter; dsimp only; split_ifs
  · exact Nat.le_refl _
  · exact Nat.le_refl _
  · exact Nat.le_refl _
  · unfold completeFrame; dsimp only; split
    · exact owed_dispatch_le ..
    · exact Nat.le_refl _
  · exact Nat.le_refl _

theorem owed_takeCharacter_le (i : LaneId) (x : Samples) : repliesOwed (takeCharacter i x s) ≤ repliesOwed s := by
  unfold takeCharacter; split
  · split
    · exact Nat.le_refl _
    dsimp only; split
    · exact Nat.le_refl _
    · exact Nat.le_refl _
    · exact Nat.le_refl _
    split
    · exact Nat.le_refl _
    · exact owed_assembleCharacter_le ..
    · exact Nat.le_refl _
  · exact Nat.le_refl _

theorem owed_takeBreak_le (i : LaneId) : repliesOwed (takeBreak i s) ≤ repliesOwed s := by
  unfold takeBreak; split
  · exact owed_laneAbort_le ..
  · exact Nat.le_refl _

theorem owed_takeSetLane_le (i : LaneId) (serve : Bool) (r : Fin 5) :
    repliesOwed (takeSetLane i serve r s) ≤ repliesOwed s := by
  unfold takeSetLane; dsimp only; repeat' split
  · exact Nat.le_refl _
  · exact Nat.le_refl _
  · exact owed_laneAbort_le ..
  · exact Nat.le_refl _
  · exact owed_laneAbort_le ..

theorem owed_takeSetDrop_le (i : LaneId) (d : DropId) (e : Enrolment) :
    repliesOwed (takeSetDrop i d e s) ≤ repliesOwed s := by
  unfold takeSetDrop; dsimp only; split_ifs
  · exact Nat.le_refl _
  · exact owed_settle_le (s := s.setLane i _) (outside_abortWhere ..)
  · exact Nat.le_refl _
  · exact Nat.le_refl _

end

/-! ## Commands of Unit Management: one reply each at most (R186-R192) -/

section
variable (q : Octet) (s : State)

theorem owed_setLane_le (a b c : Octet) : repliesOwed (manageSetLane q a b c s) ≤ repliesOwed s + 1 := by
  unfold manageSetLane; repeat' split
  · exact owed_answer_le _ _ _ _ (owed_takeSetLane_le ..)
  · exact owed_answer_le _ _ _ _ (owed_takeSetLane_le ..)
  · exact owed_answer_le _ _ _ _ (Nat.le_refl _)
  · exact owed_answer_le _ _ _ _ (Nat.le_refl _)

theorem owed_setDrop_le (a b c : Octet) : repliesOwed (manageSetDrop q a b c s) ≤ repliesOwed s + 1 := by
  unfold manageSetDrop; split
  · exact owed_answer_le _ _ _ _ (owed_takeSetDrop_le ..)
  · exact owed_answer_le _ _ _ _ (Nat.le_refl _)

theorem owed_setDay_le (d : Day) : repliesOwed (manageSetDay q d s) ≤ repliesOwed s + 1 := by
  unfold manageSetDay; split_ifs
  all_goals exact owed_answer_le _ _ _ _ (Nat.le_refl _)

theorem owed_setOverride_le (v : Octet) : repliesOwed (manageSetOverride q v s) ≤ repliesOwed s + 1 := by
  unfold manageSetOverride; split
  all_goals exact owed_answer_le _ _ _ _ (Nat.le_refl _)

/-- A QUIESCE that waits for idleness is owed instead of answered. -/
theorem owed_quiesce_le : repliesOwed (manageQuiesce q s) ≤ repliesOwed s + 1 := by
  unfold manageQuiesce; split
  · split
    · exact owed_answer_le _ _ _ _ (Nat.le_refl _)
    · simp only [repliesOwed, State.mapUm, Option.toList_some, List.length_singleton]; omega
  · exact owed_answer_le _ _ _ _ (Nat.le_refl _)
  · exact owed_answer_le _ _ _ _ (Nat.le_refl _)

/-- A pending QUIESCE that RESUME_SERVICE cancels was owed its reply already. -/
theorem owed_resumeService_le : repliesOwed (manageResumeService q s) ≤ repliesOwed s + 1 := by
  unfold manageResumeService; dsimp only; split
  · next p _ pending => exact owed_answer_le _ _ _ _ (owed_answer_of_owed _ _ _ _ (owed_quiesceEnds pending .normal))
  · refine owed_answer_le _ _ _ _ ?_
    simp only [repliesOwed, State.mapUm, Option.toList_none, List.length_nil]; omega

theorem owed_flushCache_le : repliesOwed (manageFlushCache q s) ≤ repliesOwed s + 1 := by
  unfold manageFlushCache; split
  all_goals exact owed_answer_le _ _ _ _ (Nat.le_refl _)

theorem owed_readCounters_le (c : Octet) : repliesOwed (manageReadCounters q c s) ≤ repliesOwed s + 1 := by
  unfold manageReadCounters; split
  all_goals exact owed_answer_le _ _ _ _ (Nat.le_refl _)

/-! ## The rule store: an operation owes its command's reply (R172-R177, R180) -/

theorem owed_startOperation_le (kind : OpKind) (b : BlockId) (command : Octet) :
    repliesOwed (startOperation kind b q command s) ≤ repliesOwed s + 1 := by
  simp only [repliesOwed, startOperation, State.mapRs, Option.toList_some, List.length_singleton]; omega

theorem owed_tableClear_le (b : Octet) : repliesOwed (takeTableClear q b s) ≤ repliesOwed s + 1 := by
  unfold takeTableClear; repeat' split
  · exact owed_answer_le _ _ _ _ (Nat.le_refl _)
  · exact owed_answer_le _ _ _ _ (Nat.le_refl _)
  · exact owed_startOperation_le ..

theorem owed_tableWrite_le (b e : Octet) (vs : List Octet) :
    repliesOwed (takeTableWrite q b e vs s) ≤ repliesOwed s + 1 := by
  unfold takeTableWrite; split
  · exact owed_answer_le _ _ _ _ (Nat.le_refl _)
  dsimp only; split_ifs
  case' neg => exact owed_startOperation_le ..
  all_goals exact owed_answer_le _ _ _ _ (Nat.le_refl _)

theorem owed_tableClose_le (b : Octet) : repliesOwed (takeTableClose q b s) ≤ repliesOwed s + 1 := by
  unfold takeTableClose; split
  · exact owed_answer_le _ _ _ _ (Nat.le_refl _)
  dsimp only; split_ifs
  case' neg => exact owed_startOperation_le ..
  all_goals exact owed_answer_le _ _ _ _ (Nat.le_refl _)

/-- TABLE_ABORT answers two commands, of which the one that ran was owed its reply already (R177). -/
theorem owed_tableAbort_le : repliesOwed (takeTableAbort q s) ≤ repliesOwed s + 1 := by
  unfold takeTableAbort; split
  · exact owed_answer_le _ _ _ _ (Nat.le_refl _)
  · next running => exact owed_answer_le _ _ _ _ (owed_answer_of_owed _ _ _ _ (owed_operationEnds running rfl))

theorem owed_tableStatusClear_le : repliesOwed (takeTableStatusClear q s) ≤ repliesOwed s + 1 := by
  unfold takeTableStatusClear; split
  all_goals exact owed_answer_le _ _ _ _ (Nat.le_refl _)

/-! ## Completions: the reply that was owed is produced (R173, R174, R176) -/

theorem owed_clearCompletes_le : repliesOwed (clearCompletes s) ≤ repliesOwed s := by
  unfold clearCompletes; split
  · next running => exact owed_answer_of_owed _ _ _ _ (owed_operationEnds running rfl)
  · exact Nat.le_refl _

theorem owed_writeCompletes_le : repliesOwed (writeCompletes s) ≤ repliesOwed s := by
  unfold writeCompletes; split
  · next running => exact owed_answer_of_owed _ _ _ _ (owed_operationEnds running rfl)
  · exact Nat.le_refl _

theorem owed_closeCompletes_le : repliesOwed (closeCompletes s) ≤ repliesOwed s := by
  unfold closeCompletes; split
  · next running =>
    exact (owed_le_of_outside (outside_blockAvailable ..)).trans
      (owed_answer_of_owed _ _ _ _ (owed_operationEnds running rfl))
  · exact Nat.le_refl _

end

theorem owed_losePower_le (s : State) : repliesOwed (losePower s) ≤ repliesOwed s := by
  simp only [repliesOwed, losePower, Option.toList_none, List.length_nil]; omega

/-! ## At most 16 replies (R184, R185) -/

/-- Events owe no new replies; UM takes a command only below 16, and each command owes one at most. -/
theorem repliesBounded_keeps : Keeps RepliesBounded where
  queue _ _ h := h
  receiver _ _ h _ _ _ _ := h
  octet _ h := h
  reset _ _ _ _ _ := Nat.zero_le 16
  power s h := (owed_losePower_le s).trans h
  breakEnd _ _ h := h
  gapEnd _ _ h := h
  turnStart _ _ h := h
  transmitEnd _ _ h := h
  frameGapOut _ _ h := h
  quietEnd _ _ h := h
  windowOut _ _ h := h
  heldStands _ _ h := h
  character _ _ _ h := (owed_takeCharacter_le ..).trans h
  lineBreak _ _ h := (owed_takeBreak_le ..).trans h
  reply _ _ _ _ h := h
  segment _ _ _ _ _ _ _ _ h := (owed_takeSegment_le ..).trans h
  absent _ _ h := (owed_takeAbsent_le ..).trans h
  defer _ _ _ h := (owed_takeDefer_le ..).trans h
  notice _ _ _ _ h := (owed_takeInvalidate_le ..).trans h
  result _ _ _ _ _ h := (owed_takeResult_le ..).trans h
  delayEnd _ _ h := (owed_endDelay_le ..).trans h
  fetchOut _ _ h := (owed_fetchTimerOut_le ..).trans h
  commitOut _ _ h := (owed_commitTimerOut_le ..).trans h
  deadline _ _ h := (owed_deadlineFalls_le ..).trans h
  sent _ h := (owed_endFrame_le _).trans h
  decision _ _ h := (owed_takeDecision_le ..).trans h
  setLane _ _ _ _ _ _ room := (owed_setLane_le ..).trans room
  setDrop _ _ _ _ _ _ room := (owed_setDrop_le ..).trans room
  setDay _ _ _ _ room := (owed_setDay_le ..).trans room
  setOverride _ _ _ _ room := (owed_setOverride_le ..).trans room
  quiesce _ _ _ room := (owed_quiesce_le ..).trans room
  resumeService _ _ _ room := (owed_resumeService_le ..).trans room
  flushCache _ _ _ room := (owed_flushCache_le ..).trans room
  readCounters _ _ _ _ room := (owed_readCounters_le ..).trans room
  answered _ _ _ _ _ _ room := (owed_answer_le _ _ _ _ (Nat.le_refl _)).trans room
  tableClear _ _ _ _ room := (owed_tableClear_le ..).trans room
  tableWrite _ _ _ _ _ _ room := (owed_tableWrite_le ..).trans room
  tableClose _ _ _ _ room := (owed_tableClose_le ..).trans room
  tableAbort _ _ _ room := (owed_tableAbort_le ..).trans room
  tableStatusClear _ _ _ room := (owed_tableStatusClear_le ..).trans room
  clearDone _ h := (owed_clearCompletes_le _).trans h
  writeDone _ h := (owed_writeCompletes_le _).trans h
  closeDone _ h := (owed_closeCompletes_le _).trans h

/-- Settles O59: no operation owes more than the room that UM asks for before it takes a command. -/
theorem repliesBoundedKept : Obligations.RepliesBoundedKept := fun s t => repliesBounded_keeps.step s t

end Sys2Proof.UnitManagement

namespace Sys2Proof.UnitManagement

open Sys2Proof Sys2Proof.Machine Sys2Proof.Safety Sys2Proof.KioskLanes Sys2Proof.BranchLink

/-! ## RESET_UNIT and the loss of power (R182, R193) -/

theorem exec_resetLine (straps : BitVec 6) (s : State) :
    exec (.resetLine straps) s = .next (resetAll .hunt straps .line s) := rfl

theorem exec_resetUnit {s : State} (h : Manageable s) (seq : Octet) (straps : BitVec 6) :
    exec (.resetUnit seq straps) s = .next (resetAll .frame straps .command s) :=
  congrArg Host.Outcome.next (live_arriveMgmt h _ rfl (Nat.le_of_ble_eq_true rfl) (Nat.le_of_ble_eq_true rfl))

theorem exec_powerLoss {s : State} (power : s.powered = true) : exec .powerLoss s = .next (losePower s) :=
  congrArg Host.Outcome.next (live_powered power losePower)

/-- The phase and the cause that a reset is given stand in the receiver, in UM and in its UNIT_STARTED, and nowhere
else. -/
theorem resetAll_phase_cause (phase : RxPhase) (straps : BitVec 6) (cause : ResetCause) (s : State) :
    let t := resetAll .hunt straps .line s
    resetAll phase straps cause s = { t with
      bli := { t.bli with phase := phase, txQueue := [.unitStarted cause] }, um := { t.um with cause := cause } } := rfl

/-- Settles O4: both resets are one operation with another phase and cause; it keeps the blocks, and so does a loss of
power. -/
theorem resetUnitAndPowerLoss : Obligations.ResetUnitAndPowerLoss := by
  refine ⟨fun s seq straps h => ⟨_, exec_resetLine straps s, ?_⟩, fun s straps power shape =>
    ⟨_, _, exec_powerLoss power, exec_resetLine straps _, rfl, rfl, rfl, rfl, shape.1⟩⟩
  rw [exec_resetUnit h, resetAll_phase_cause]

/-! ## SET_DAY and SET_OVERRIDE (R187, R188) -/

theorem exec_setDay {s : State} (h : Manageable s) (seq : Octet) (day : Day) :
    exec (.setDay seq day) s = .next (manageSetDay seq day (counted s)) :=
  congrArg Host.Outcome.next (live_arriveMgmt h _ rfl (Nat.le_of_ble_eq_true rfl) (Nat.le_of_ble_eq_true rfl))

theorem exec_setOverride {s : State} (h : Manageable s) (seq value : Octet) :
    exec (.setOverride seq value) s = .next (manageSetOverride seq value (counted s)) :=
  congrArg Host.Outcome.next (live_arriveMgmt h _ rfl (Nat.le_of_ble_eq_true rfl) (Nat.le_of_ble_eq_true rfl))

section
variable (seq : Octet) (s : State)

theorem manageSetDay_zero : manageSetDay seq 0 s = answer seq 0x03 .badValue [] s := if_pos rfl

theorem manageSetDay_backward {day : Day} (named : day ≠ 0) (back : day.toNat < s.um.day.toNat) :
    manageSetDay seq day s = answer seq 0x03 .dayBackward [] s := by
  rw [manageSetDay, if_neg named, if_pos back]; rfl

theorem manageSetDay_taken {day : Day} (named : day ≠ 0) (forward : s.um.day.toNat ≤ day.toNat) :
    manageSetDay seq day s = answer seq 0x03 .done [] { s with um := { s.um with day := day } } := by
  rw [manageSetDay, if_neg named, if_neg (Nat.not_lt.mpr forward)]; rfl

theorem overrideOf_some {value : Octet} {o : Override}
    (h : value = 0 ∧ o = .localKinds ∨ value = 1 ∧ o = .relayAll ∨ value = 2 ∧ o = .refuseAll) :
    overrideOf value = some o := by
  rcases h with ⟨rfl, rfl⟩ | ⟨rfl, rfl⟩ | ⟨rfl, rfl⟩ <;> rfl

theorem overrideOf_none {value : Octet} (h : 3 ≤ value.toNat) : overrideOf value = none := by
  have h0 : value ≠ 0 := by rintro rfl; simp at h
  have h1 : value ≠ 1 := by rintro rfl; simp at h
  have h2 : value ≠ 2 := by rintro rfl; simp at h
  rw [overrideOf, if_neg h0, if_neg h1, if_neg h2]

theorem manageSetOverride_taken {value : Octet} {o : Override} (is : overrideOf value = some o) :
    manageSetOverride seq value s = answer seq 0x04 .done [] { s with um := { s.um with override := o } } := by
  rw [manageSetOverride, is]; rfl

theorem manageSetOverride_refused {value : Octet} (unknown : overrideOf value = none) :
    manageSetOverride seq value s = answer seq 0x04 .badValue [] s := by
  rw [manageSetOverride, unknown]; rfl

end

/-- Settles O50: each command by its operand, and SET_DAY by the county day. -/
theorem setDayAndOverride : Obligations.SetDayAndOverride := by
  intro s seq value day h
  rw [exec_setDay h, exec_setOverride h]
  refine ⟨?zero, fun named forward => ?taken, fun named back => ?backward, fun o is => ?override,
    fun beyond => ?refused⟩
  case zero => rintro rfl; rw [manageSetDay_zero]
  case taken => rw [manageSetDay_taken seq (counted s) named forward]; rfl
  case backward => rw [manageSetDay_backward seq (counted s) named back]
  case override => rw [manageSetOverride_taken seq _ (overrideOf_some is)]; rfl
  case refused => rw [manageSetOverride_refused seq _ (overrideOf_none beyond)]

/-! ## Unknown commands, and frames that find no room for a reply (R185, R202) -/

/-- What the straps pins would read to a RESET_UNIT, and any value for another command. -/
def pinsOf : Instr → BitVec 6
  | .resetUnit _ straps => straps
  | _ => 0

/-- Between frames a well-formed command's frame is taken by its block, whatever the pins. -/
theorem exec_wellFormed {c : Instr} {kind : Octet} {tag : Tag} {payload : List Octet} {s : State} (h : Listening s)
    (wf : c.wellFormed = true) (e : encodeFrame c = some (kind, tag, payload)) :
    exec c s = .next (steer c (counted s)) := by
  obtain ⟨fits, accepted, -⟩ := frameCodec c kind tag payload (pinsOf c) wf e (by rintro seq pins rfl; rfl)
  exact exec_command h wf e fits accepted

theorem takeMgmt_full {s : State} (full : 16 ≤ repliesOwed s) (f : State → State) : takeMgmt f s = s := if_pos full

theorem takeMgmt_room {s : State} (room : repliesOwed s < 16) (f : State → State) : takeMgmt f s = f s :=
  if_neg (Nat.not_le.mpr room)

/-- The block of every MGMT frame is UM, which takes none while 16 replies are held or owed. -/
theorem steer_full {c : Instr} {tag : Tag} {payload : List Octet} {s : State}
    (management : encodeFrame c = some (0x26, tag, payload)) (full : 16 ≤ repliesOwed s) : steer c s = s := by
  cases c
  case setLane | setDrop | setDay | setOverride | quiesce | resumeService | flushCache | readStatus | readCounters
      | resetUnit | unknownCommand | tableClear | tableWrite | tableClose | tableAbort | tableRead | tableStatusClear =>
    exact takeMgmt_full full _
  all_goals simp [encodeFrame] at management

/-- The receiver and the link counters owe no reply. -/
theorem owed_counted (s : State) : repliesOwed (counted s) = repliesOwed s := rfl

/-- Settles O53: UM, to which every MGMT frame is steered, answers a code it does not know, and discards any frame when
full. -/
theorem unknownAndUntakenCommands : Obligations.UnknownAndUntakenCommands := by
  refine ⟨fun s seq code args ⟨listening, room⟩ wf => ?_, fun s c tag payload listening full wf e => ?_⟩
  · rw [exec_wellFormed listening wf rfl, steer, takeMgmt_room (by rwa [owed_counted])]
  · rw [exec_wellFormed listening wf e, steer_full e (by rwa [owed_counted])]

end Sys2Proof.UnitManagement

namespace Sys2Proof.UnitManagement

open Sys2Proof Sys2Proof.Machine Sys2Proof.KioskLanes

/-! ## Every block after a reset (R1, R24, R46, R63, R83, R106)

A reset reads nothing of the state but the store's blocks and the queue, so the tables after it are those of the reset
state. -/

section
variable (phase : RxPhase) (straps : BitVec 6) (cause : ResetCause) (s : State)

theorem ctx_resetAll (c : CtxId) : (resetAll phase straps cause s).ctx c = ⟨0, none⟩ := by
  simp [State.ctx, resetAll, State.afterReset, Dct.reset]

theorem pool_resetAll (k : RecordKind) : (resetAll phase straps cause s).pool k = Pool.reset k := pool_reset k

theorem entry_resetAll (k : RecordKind) (n : Nat) : (resetAll phase straps cause s).entry k n = .empty :=
  entry_reset k n

theorem slot_resetAll (i : SlotId) : (resetAll phase straps cause s).slot i = ⟨0, none, false⟩ := slot_reset i

theorem commitRec_resetAll (c : CtxId) : (resetAll phase straps cause s).commitRec c = CommitRecord.reset :=
  commitRec_reset c

end

/-- Every drop of a lane after reset is OFF, PRESENT and without a miss (R1). -/
theorem dropRec_laneReset (d : DropId) : Lane.reset.dropRec d = ⟨.off, .present, 0⟩ := by
  simp [Lane.dropRec, Lane.reset, DropRecord.reset]

/-- Settles O3: the tables by their lemmas, and the fields that no table holds by the value the reset writes. -/
theorem resetLineGivesResetState : Obligations.ResetLineGivesResetState := by
  intro straps s
  refine ⟨_, exec_resetLine straps s, rfl, rfl, fun i => ?lanes, rfl, rfl, rfl, rfl, rfl, rfl, rfl, rfl, rfl,
    ctx_resetAll .hunt straps .line s, rfl, entry_resetAll .hunt straps .line s, fun k => ?pools,
    slot_resetAll .hunt straps .line s, rfl, commitRec_resetAll .hunt straps .line s, rfl, rfl, rfl⟩
  case lanes =>
    rw [lane_resetAll]
    exact ⟨rfl, rfl, rfl, dropRec_laneReset, rfl, rfl, rfl, rfl⟩
  case pools =>
    rw [pool_resetAll]
    exact ⟨List.length_replicate, rfl, rfl⟩

end Sys2Proof.UnitManagement

namespace Sys2Proof.CommandQueue

open Sys2Proof Sys2Proof.Machine Sys2Proof.KioskLanes Sys2Proof.BranchLink

/-! ## The front of the queue (log entry 28) -/

/-- Settles O1, by the front of the queue in the definition of a step. -/
theorem stepTakesFrontCommand : Obligations.StepTakesFrontCommand := by
  intro s c rest front
  rw [step, front]

/-! ## What leaves the commands waiting alone -/

/-- An operation that leaves the steady part of the state alone leaves the queue alone. -/
theorem pending_of_steady {s t : State} (h : t.steady = s.steady) : t.pending = s.pending := congrArg Steady.pending h

@[simp] theorem pending_answer (seq command : Octet) (result : ResultCode) (fields : List Octet) (s : State) :
    (answer seq command result fields s).pending = s.pending := pending_of_steady (steady_answer ..)

@[simp] theorem pending_dispatch (i : LaneId) (d : DropId) (body : List Octet) (s : State) :
    (dispatch i d body s).pending = s.pending := pending_of_steady (steady_dispatch ..)

@[simp] theorem pending_abortLane (i : LaneId) (s : State) : (abortLane i s).pending = s.pending :=
  pending_of_steady (steady_abortLane ..)

@[simp] theorem pending_abortDrop (i : LaneId) (d : DropId) (s : State) : (abortDrop i d s).pending = s.pending :=
  pending_of_steady (steady_abortDrop ..)

@[simp] theorem pending_takeDecision (f : CtxId → Txn → State → Option Decision) (s : State) :
    (takeDecision f s).pending = s.pending := pending_of_steady (steady_takeDecision ..)

/-- An event that finds the part without power does nothing. -/
theorem pending_live {f : State → State} {s : State} (h : (f s).pending = s.pending) :
    (live f s).pending = s.pending := by
  unfold live; split
  · exact h
  · rfl

/-- A MGMT frame that finds no room for its reply does nothing (R185). -/
theorem pending_takeMgmt {f : State → State} {s : State} (h : (f s).pending = s.pending) :
    (takeMgmt f s).pending = s.pending := by
  unfold takeMgmt; split
  · rfl
  · exact h

/-! ## Lanes (R4, R5, R10, R13-R19) -/

@[simp] theorem pending_laneAbort (i : LaneId) (mode : Lane → Lane) (s : State) :
    (laneAbort i mode s).pending = s.pending := by simp [laneAbort]

theorem pending_takeBreak (i : LaneId) (s : State) : (takeBreak i s).pending = s.pending := by
  unfold takeBreak; split <;> simp

@[simp] theorem pending_completeFrame (i : LaneId) (d : DropId) (buffer : List LaneChar) (s : State) :
    (completeFrame i d buffer s).pending = s.pending := by
  unfold completeFrame; dsimp only; split <;> simp

@[simp] theorem pending_assembleCharacter (i : LaneId) (d : DropId) (c : LaneChar) (s : State) :
    (assembleCharacter i d c s).pending = s.pending := by
  unfold assembleCharacter; dsimp only; split_ifs <;> simp

theorem pending_takeCharacter (i : LaneId) (x : Samples) (s : State) : (takeCharacter i x s).pending = s.pending := by
  unfold takeCharacter; dsimp only; repeat' split
  all_goals simp

@[simp] theorem pending_takeSetLane (i : LaneId) (serve : Bool) (rate : Fin 5) (s : State) :
    (takeSetLane i serve rate s).pending = s.pending := by
  unfold takeSetLane; dsimp only; repeat' split
  all_goals simp

@[simp] theorem pending_takeSetDrop (i : LaneId) (d : DropId) (e : Enrolment) (s : State) :
    (takeSetDrop i d e s).pending = s.pending := by
  unfold takeSetDrop; dsimp only; split_ifs <;> simp

/-! ## Unit Management (R186-R193) -/

theorem pending_setLane (seq lane mode rate : Octet) (s : State) :
    (manageSetLane seq lane mode rate s).pending = s.pending := by
  unfold manageSetLane; repeat' split
  all_goals simp

theorem pending_setDrop (seq lane drop enrolment : Octet) (s : State) :
    (manageSetDrop seq lane drop enrolment s).pending = s.pending := by
  unfold manageSetDrop; split <;> simp

theorem pending_setDay (seq : Octet) (day : Day) (s : State) : (manageSetDay seq day s).pending = s.pending := by
  unfold manageSetDay; split_ifs <;> simp

theorem pending_setOverride (seq value : Octet) (s : State) : (manageSetOverride seq value s).pending = s.pending := by
  unfold manageSetOverride; split <;> simp

theorem pending_quiesce (seq : Octet) (s : State) : (manageQuiesce seq s).pending = s.pending := by
  unfold manageQuiesce; repeat' split
  all_goals simp

theorem pending_resumeService (seq : Octet) (s : State) : (manageResumeService seq s).pending = s.pending := by
  unfold manageResumeService; dsimp only; split <;> simp

theorem pending_flushCache (seq : Octet) (s : State) : (manageFlushCache seq s).pending = s.pending := by
  unfold manageFlushCache; split <;> simp

theorem pending_readCounters (seq clearAfter : Octet) (s : State) :
    (manageReadCounters seq clearAfter s).pending = s.pending := by
  unfold manageReadCounters; rw [pending_answer]; split <;> rfl

/-! ## The rule store (R172-R180) -/

@[simp] theorem pending_startOperation (kind : OpKind) (b : BlockId) (seq command : Octet) (s : State) :
    (startOperation kind b seq command s).pending = s.pending := rfl

@[simp] theorem pending_sequenceError (seq command : Octet) (s : State) :
    (sequenceError seq command s).pending = s.pending := by simp [sequenceError]

theorem pending_tableClear (seq block : Octet) (s : State) : (takeTableClear seq block s).pending = s.pending := by
  unfold takeTableClear; repeat' split
  all_goals simp

theorem pending_tableWrite (seq block entry : Octet) (values : List Octet) (s : State) :
    (takeTableWrite seq block entry values s).pending = s.pending := by
  unfold takeTableWrite; dsimp only; repeat' split
  all_goals simp

theorem pending_tableClose (seq block : Octet) (s : State) : (takeTableClose seq block s).pending = s.pending := by
  unfold takeTableClose; dsimp only; repeat' split
  all_goals simp

theorem pending_tableAbort (seq : Octet) (s : State) : (takeTableAbort seq s).pending = s.pending := by
  unfold takeTableAbort; split <;> simp

theorem pending_tableRead (seq block entry : Octet) (s : State) :
    (takeTableRead seq block entry s).pending = s.pending := by
  unfold takeTableRead; repeat' split
  all_goals simp

theorem pending_tableStatusClear (seq : Octet) (s : State) : (takeTableStatusClear seq s).pending = s.pending := by
  unfold takeTableStatusClear; split <;> simp

theorem pending_clearCompletes (s : State) : (clearCompletes s).pending = s.pending := by
  unfold clearCompletes; split <;> simp

theorem pending_writeCompletes (s : State) : (writeCompletes s).pending = s.pending := by
  unfold writeCompletes; split <;> simp

/-- The contexts that go on when a block becomes available leave the queue alone. -/
@[simp] theorem pending_blockAvailable (b : BlockId) (s : State) : (blockAvailable b s).pending = s.pending :=
  pending_of_steady (steady_of_outside (outside_blockAvailable b s))

theorem pending_closeCompletes (s : State) : (closeCompletes s).pending = s.pending := by
  unfold closeCompletes; split <;> simp

/-! ## Frames and the octets they arrive as (R26-R31) -/

/-- The block of a good frame leaves the queue alone. -/
@[simp] theorem pending_steer (c : Instr) (s : State) : (steer c s).pending = s.pending := by
  cases c
  case relayDown => exact pending_of_steady (steady_takeRelayDown ..)
  case segment => exact pending_of_steady (steady_takeSegment ..)
  case absent => exact pending_of_steady (steady_takeAbsent ..)
  case defer => exact pending_of_steady (steady_takeDefer ..)
  case invalidate => exact pending_of_steady (steady_takeInvalidate ..)
  case result => exact pending_of_steady (steady_takeResult ..)
  case setLane => exact pending_takeMgmt (pending_setLane ..)
  case setDrop => exact pending_takeMgmt (pending_setDrop ..)
  case setDay => exact pending_takeMgmt (pending_setDay ..)
  case setOverride => exact pending_takeMgmt (pending_setOverride ..)
  case quiesce => exact pending_takeMgmt (pending_quiesce ..)
  case resumeService => exact pending_takeMgmt (pending_resumeService ..)
  case flushCache => exact pending_takeMgmt (pending_flushCache ..)
  case readStatus | unknownCommand => exact pending_takeMgmt (pending_answer ..)
  case readCounters => exact pending_takeMgmt (pending_readCounters ..)
  case resetUnit => exact pending_takeMgmt rfl
  case tableClear => exact pending_takeMgmt (pending_tableClear ..)
  case tableWrite => exact pending_takeMgmt (pending_tableWrite ..)
  case tableClose => exact pending_takeMgmt (pending_tableClose ..)
  case tableAbort => exact pending_takeMgmt (pending_tableAbort ..)
  case tableRead => exact pending_takeMgmt (pending_tableRead ..)
  case tableStatusClear => exact pending_takeMgmt (pending_tableStatusClear ..)
  all_goals rfl

@[simp] theorem pending_checkFrame (content : List Octet) (s : State) :
    (checkFrame content s).pending = s.pending := by
  unfold checkFrame; repeat' split
  all_goals simp

@[simp] theorem pending_receiveOctet (s : State) (o : Octet) : (receiveOctet s o).pending = s.pending := by
  unfold receiveOctet; dsimp only; split <;> simp

theorem pending_receiveBit (s : State) (b : Bool) : (receiveBit s b).pending = s.pending := by
  unfold receiveBit; dsimp only; repeat' split
  all_goals simp

/-- What each item of a run leaves alone, the run leaves alone. -/
theorem pending_foldl {α : Type} {f : State → α → State} (h : ∀ s a, (f s a).pending = s.pending) (l : List α)
    (s : State) : (l.foldl f s).pending = s.pending := by
  induction l generalizing s with
  | nil => rfl
  | cons a l ih => exact (ih (f s a)).trans (h s a)

theorem pending_receiveLine (s : State) (o : Octet) : (receiveLine s o).pending = s.pending :=
  pending_foldl pending_receiveBit (octetBits o) s

@[simp] theorem pending_openFrame (s : State) : (openFrame s).pending = s.pending := pending_receiveLine s 0xA5

theorem pending_receiveOctets (octets : List Octet) (s : State) : (receiveOctets octets s).pending = s.pending :=
  (pending_foldl pending_receiveLine octets _).trans (pending_openFrame s)

theorem pending_findBoundary (s : State) : (findBoundary s).pending = s.pending := by
  unfold findBoundary; split <;> rfl

/-- A frame leaves alone what its block leaves alone, taken whole or bit by bit. -/
theorem pending_arrive (c : Instr) {f : State → State} (h : ∀ s, (f s).pending = s.pending) (s : State) :
    (arrive c f s).pending = s.pending := by
  unfold arrive; dsimp only; repeat' split
  · exact pending_openFrame s
  · rw [h, State.countLink_pending, pending_openFrame]
  · rw [State.countLink_pending, pending_openFrame]
  · rw [pending_foldl pending_receiveLine, pending_openFrame]

/-! ## Every command -/

/-- Settles O2: a command that is a frame arrives and is steered to its block; each of the others is one operation of a
lane, a timer, AU, the store, the link or the power. -/
theorem commandsCompleteAndKeepQueue : Obligations.CommandsCompleteAndKeepQueue := by
  intro c s
  cases frame : encodeFrame c with
  | some x => exact ⟨_, exec_arrives frame s, pending_live (pending_arrive c (pending_steer _) s)⟩
  | none =>
    cases c <;> first | (cases frame; done) | refine ⟨_, rfl, ?_⟩
    case resetLine => rfl
    case laneCharacter => exact pending_live (pending_takeCharacter ..)
    case breakReceived => exact pending_live (pending_takeBreak ..)
    case linkFrameError => exact pending_live (pending_receiveOctets ..)
    case octetBoundaryFound => exact pending_live (pending_findBoundary s)
    case deferDelayEnd => exact pending_live (pending_of_steady (steady_endDelay ..))
    case fetchTimeout => exact pending_live (pending_of_steady (steady_fetchTimerOut ..))
    case commitTimeout => exact pending_live (pending_of_steady (steady_commitTimerOut ..))
    case transactionDeadline => exact pending_live (pending_of_steady (steady_deadlineFalls ..))
    case transmitFrameEnd => exact pending_live (pending_of_steady (steady_endFrame s))
    case renew | pay | account | hold | cancel | suspend | resume => exact pending_live (pending_takeDecision ..)
    case clearComplete => exact pending_live (pending_clearCompletes s)
    case writeComplete => exact pending_live (pending_writeCompletes s)
    case closeComplete => exact pending_live (pending_closeCompletes s)
    case powerLoss | breakEnd | gapEnd | turnStart | laneTransmitEnd | frameGapTimeout | quietWaitEnd
        | answerWindowTimeout | heldCharacterStands => exact pending_live rfl

end Sys2Proof.CommandQueue
